-- ==== Sys2Proof/Word.lean ====
section
/-!
DEFINITION. The word types of the block and the notation of rule R29 (00_scope.md) for reading and writing them.
-/

namespace Sys2Proof

/-- A 32-bit word: `tick_delta`, `position`, `last_read_time`, `now_ms`, `accel`, `rsp_data` (R6, R8). -/
abbrev Word32 := BitVec 32

/-- `sval(v)` of R29: the signed value of a two's-complement word. -/
abbrev sval (v : Word32) : Int := v.toInt

/-- `uval(v)` of R29: the unsigned value of a word. -/
abbrev uval (v : Word32) : Nat := v.toNat

/-- `wrapS_32(z)` of R29, as the 32-bit word that holds it. -/
abbrev wrapS32 (z : Int) : Word32 := BitVec.ofInt 32 z

end Sys2Proof
end

