-- ==== Sys2Proof/Config.lean ====
section
/-!
DEFINITION. What is fixed for this hardware (the named parameters of 00_scope.md) and the free values: what the spec
leaves unspecified, as constants with no body.
-/

namespace Sys2Proof

/-- `NCH` (R5): the number of channels. -/
abbrev Config.nch : Nat := 8

/-- The value of `VEL_THRESHOLD` for this hardware (R7, D7), in ticks per millisecond. The definitions of READ take the
threshold as an argument; `execRead` gives them this value. -/
def Config.velThreshold : Nat := 11

/-- The value of `SKIP_DELTA` for this hardware (R9, D9): the delta of the transition keys 3 and 12. `classDelta` and
`delta` take it as an argument. -/
def Config.skipDelta : Int := 0

/-- The value of `NEUTRAL` for this hardware (R114, D13): what READ responds for an invalid channel. `State.read` takes
it as an argument. -/
def Config.neutral : Word32 := 0#32

/-- The factor 1.0 that reset and INIT store (R15, R26), a binary32 pattern. -/
def Config.accelOne : Word32 := 0x3F800000#32

/-- FREE VALUE (R112, D6, U3): the new `position` after a fast READ whose factor is a NaN or an infinity, as a
function of `State.freeCount`. DESIGN CHOICE, log entry 8; safe: nothing can be proved of its value. -/
opaque Config.freePosition : Nat → Word32

/-- FREE VALUE (R22, R27, U13): `ctl.trig_pin` after a hardware reset event, as a function of `State.freeCount`.
DESIGN CHOICE, log entry 7; safe. -/
opaque Config.freeTrigPin : Nat → BitVec 4

/-- FREE VALUE (R22, R27, U13): `ctl.snap` after a hardware reset event, as a function of `State.freeCount`.
DESIGN CHOICE, log entry 7; safe. -/
opaque Config.freeSnap : Nat → BitVec 16

end Sys2Proof
end

