-- ==== Sys2Proof/Syntax.lean ====
section
/-!
DEFINITION. The operations of the block as syntax: one constructor of `Instr` for each row of spec/opcode_table.json
(30_encoding.md), and the three encoded forms.
-/

namespace Sys2Proof

/-- The three formats of 30_encoding.md: the command word (R50), the test form of the interrupt operation (R60) and the
transition key (R56). -/
inductive Format where
  | cmd
  | irqop
  | key4
  deriving DecidableEq, Repr

/-- The operations. A command carries its channel index `ch`, the signed value of `cmd_word[39:32]` (R52), and its
`data`, `cmd_word[31:0]` (R53); both are kept where the operation ignores them, so that no bit of a word is lost. -/
inductive Instr where
  /-- INIT (R120); `ch` and `data` ignored. -/
  | init (ch : Int) (data : Word32)
  /-- READ `ch` (R106); `data` ignored. -/
  | read (ch : Int) (data : Word32)
  /-- WRITE `ch`, `data` (R123): `data` is the new position. -/
  | write (ch : Int) (data : Word32)
  /-- SETACC `ch`, `data` (R125): `data` is the new factor, a binary32 pattern. -/
  | setacc (ch : Int) (data : Word32)
  /-- RSVD 4 (R127); `ch` and `data` ignored. -/
  | rsvd4 (ch : Int) (data : Word32)
  /-- RSVD 5 (R127); `ch` and `data` ignored. -/
  | rsvd5 (ch : Int) (data : Word32)
  /-- RSVD 6 (R127); `ch` and `data` ignored. -/
  | rsvd6 (ch : Int) (data : Word32)
  /-- RSVD 7 (R127); `ch` and `data` ignored. -/
  | rsvd7 (ch : Int) (data : Word32)
  /-- RSVD 8 (R127); `ch` and `data` ignored. -/
  | rsvd8 (ch : Int) (data : Word32)
  /-- RSVD 9 (R127); `ch` and `data` ignored. -/
  | rsvd9 (ch : Int) (data : Word32)
  /-- RSVD 10 (R127); `ch` and `data` ignored. -/
  | rsvd10 (ch : Int) (data : Word32)
  /-- RSVD 11 (R127); `ch` and `data` ignored. -/
  | rsvd11 (ch : Int) (data : Word32)
  /-- RSVD 12 (R127); `ch` and `data` ignored. -/
  | rsvd12 (ch : Int) (data : Word32)
  /-- RSVD 13 (R127); `ch` and `data` ignored. -/
  | rsvd13 (ch : Int) (data : Word32)
  /-- RSVD 14 (R127); `ch` and `data` ignored. -/
  | rsvd14 (ch : Int) (data : Word32)
  /-- RSVD 15 (R127); `ch` and `data` ignored. -/
  | rsvd15 (ch : Int) (data : Word32)
  /-- IRQ (R60, R63, R95): the whole interrupt operation, the peripheral answering `trigPin` and `snap`. -/
  | irq (trigPin : BitVec 4) (snap : BitVec 16)
  /-- TK0: key 0, samples 00 then 00, class HOLD (R72). -/
  | tk0
  /-- TK1: key 1, samples 00 then 01, class INC (R73). -/
  | tk1
  /-- TK2: key 2, samples 00 then 10, class DEC (R74). -/
  | tk2
  /-- TK3: key 3, samples 00 then 11, class SKIP (R75). -/
  | tk3
  /-- TK4: key 4, samples 01 then 00, class DEC (R74). -/
  | tk4
  /-- TK5: key 5, samples 01 then 01, class HOLD (R72). -/
  | tk5
  /-- TK6: key 6, samples 01 then 10, class SKIPX (R76). -/
  | tk6
  /-- TK7: key 7, samples 01 then 11, class INC (R73). -/
  | tk7
  /-- TK8: key 8, samples 10 then 00, class INC (R73). -/
  | tk8
  /-- TK9: key 9, samples 10 then 01, class SKIPX (R76). -/
  | tk9
  /-- TK10: key 10, samples 10 then 10, class HOLD (R72). -/
  | tk10
  /-- TK11: key 11, samples 10 then 11, class DEC (R74). -/
  | tk11
  /-- TK12: key 12, samples 11 then 00, class SKIP (R75). -/
  | tk12
  /-- TK13: key 13, samples 11 then 01, class DEC (R74). -/
  | tk13
  /-- TK14: key 14, samples 11 then 10, class INC (R73). -/
  | tk14
  /-- TK15: key 15, samples 11 then 11, class HOLD (R72). -/
  | tk15
  deriving DecidableEq, Repr

/-- The format a row of the table has. -/
def Instr.format : Instr → Format
  | .init _ _ => .cmd
  | .read _ _ => .cmd
  | .write _ _ => .cmd
  | .setacc _ _ => .cmd
  | .rsvd4 _ _ => .cmd
  | .rsvd5 _ _ => .cmd
  | .rsvd6 _ _ => .cmd
  | .rsvd7 _ _ => .cmd
  | .rsvd8 _ _ => .cmd
  | .rsvd9 _ _ => .cmd
  | .rsvd10 _ _ => .cmd
  | .rsvd11 _ _ => .cmd
  | .rsvd12 _ _ => .cmd
  | .rsvd13 _ _ => .cmd
  | .rsvd14 _ _ => .cmd
  | .rsvd15 _ _ => .cmd
  | .irq _ _ => .irqop
  | .tk0 => .key4
  | .tk1 => .key4
  | .tk2 => .key4
  | .tk3 => .key4
  | .tk4 => .key4
  | .tk5 => .key4
  | .tk6 => .key4
  | .tk7 => .key4
  | .tk8 => .key4
  | .tk9 => .key4
  | .tk10 => .key4
  | .tk11 => .key4
  | .tk12 => .key4
  | .tk13 => .key4
  | .tk14 => .key4
  | .tk15 => .key4

/-- An encoded operation: a command word, an `IRQOP` value or a key. -/
inductive Encoded where
  | cmd (w : BitVec 44)
  | irqop (w : BitVec 20)
  | key4 (k : BitVec 4)
  deriving DecidableEq, Repr

/-- The format of an encoded operation. -/
def Encoded.format : Encoded → Format
  | .cmd _ => .cmd
  | .irqop _ => .irqop
  | .key4 _ => .key4

/-- The encoded operation's bits as a number, bit 0 the least significant. -/
def Encoded.bits : Encoded → Nat
  | .cmd w => w.toNat
  | .irqop w => w.toNat
  | .key4 k => k.toNat

end Sys2Proof
end

