-- ==== Sys2Proof/WellFormed.lean ====
section
/-!
DEFINITION. Which operations the encodings can hold: the channel index of a command is a signed 8-bit value
(30_encoding.md R52). Every other operand has its width in its type.
-/

namespace Sys2Proof

/-- R52: `ch` is in `-128 .. 127`. -/
def chanFieldFits (ch : Int) : Bool := decide (-128 ≤ ch) && decide (ch ≤ 127)

/-- The operation has an encoding. -/
def Instr.wellFormed : Instr → Bool
  | .init ch _ => chanFieldFits ch
  | .read ch _ => chanFieldFits ch
  | .write ch _ => chanFieldFits ch
  | .setacc ch _ => chanFieldFits ch
  | .rsvd4 ch _ => chanFieldFits ch
  | .rsvd5 ch _ => chanFieldFits ch
  | .rsvd6 ch _ => chanFieldFits ch
  | .rsvd7 ch _ => chanFieldFits ch
  | .rsvd8 ch _ => chanFieldFits ch
  | .rsvd9 ch _ => chanFieldFits ch
  | .rsvd10 ch _ => chanFieldFits ch
  | .rsvd11 ch _ => chanFieldFits ch
  | .rsvd12 ch _ => chanFieldFits ch
  | .rsvd13 ch _ => chanFieldFits ch
  | .rsvd14 ch _ => chanFieldFits ch
  | .rsvd15 ch _ => chanFieldFits ch
  | .irq _ _ => true
  | .tk0 => true
  | .tk1 => true
  | .tk2 => true
  | .tk3 => true
  | .tk4 => true
  | .tk5 => true
  | .tk6 => true
  | .tk7 => true
  | .tk8 => true
  | .tk9 => true
  | .tk10 => true
  | .tk11 => true
  | .tk12 => true
  | .tk13 => true
  | .tk14 => true
  | .tk15 => true

end Sys2Proof
end

