-- ==== Sys2Proof/Decode.lean ====
section
/-!
DEFINITION. Decoding (30_encoding.md R50 to R61) and, after it, the encoder, written from the same tables. Every command
word, every `IRQOP` value and every key decodes; what is rejected, by name, is a container that holds none of the three.
-/

namespace Sys2Proof

/-- `cmd_word[43:40]` (R50). -/
def cmdOp (w : BitVec 44) : BitVec 4 := w.extractLsb' 40 4

/-- `sval(cmd_word[39:32])` (R52). -/
def cmdCh (w : BitVec 44) : Int := (w.extractLsb' 32 8).toInt

/-- `cmd_word[31:0]` (R53). -/
def cmdData (w : BitVec 44) : Word32 := w.extractLsb' 0 32

/-- The table of R51: the operation an `op` value names. -/
def commandOf (op : BitVec 4) (ch : Int) (data : Word32) : Instr :=
  match op.toNat with
  | 0 => .init ch data
  | 1 => .read ch data
  | 2 => .write ch data
  | 3 => .setacc ch data
  | 4 => .rsvd4 ch data
  | 5 => .rsvd5 ch data
  | 6 => .rsvd6 ch data
  | 7 => .rsvd7 ch data
  | 8 => .rsvd8 ch data
  | 9 => .rsvd9 ch data
  | 10 => .rsvd10 ch data
  | 11 => .rsvd11 ch data
  | 12 => .rsvd12 ch data
  | 13 => .rsvd13 ch data
  | 14 => .rsvd14 ch data
  | _ => .rsvd15 ch data

/-- Decoding a command word (R50 to R53). -/
def decodeCmd (w : BitVec 44) : Instr := commandOf (cmdOp w) (cmdCh w) (cmdData w)

/-- Decoding an `IRQOP` value (R60): `{trig_pin[3:0], snap[15:0]}`. -/
def decodeIrqOp (w : BitVec 20) : Instr := .irq (w.extractLsb' 16 4) (w.extractLsb' 0 16)

/-- Decoding a transition key (R57). -/
def decodeKey (k : BitVec 4) : Instr :=
  match k.toNat with
  | 0 => .tk0
  | 1 => .tk1
  | 2 => .tk2
  | 3 => .tk3
  | 4 => .tk4
  | 5 => .tk5
  | 6 => .tk6
  | 7 => .tk7
  | 8 => .tk8
  | 9 => .tk9
  | 10 => .tk10
  | 11 => .tk11
  | 12 => .tk12
  | 13 => .tk13
  | 14 => .tk14
  | _ => .tk15

/-- Decoding an encoded operation: total. -/
def decode : Encoded → Instr
  | .cmd w => decodeCmd w
  | .irqop w => decodeIrqOp w
  | .key4 k => decodeKey k

/-- Why a container of bits holds no operation. -/
inductive Reject where
  /-- Fewer than four bits: no format fits. Safe. -/
  | tooShort
  /-- A bit above the format's width is set: the number is no word of that format. Safe. -/
  | paddingNotZero
  deriving DecidableEq, Repr

/-- The encoded operation in a container of `nbits` bits: the widest format that fits in it, the bits above that
format's width zero. The block moves no bytes (R33), so this is the model's way to tell the formats apart.
DESIGN CHOICE, log entry 13; safe. -/
def fromContainer (nbits w : Nat) : Except Reject Encoded :=
  if 44 ≤ nbits then
    if w < 2 ^ 44 then .ok (.cmd (BitVec.ofNat 44 w)) else .error .paddingNotZero
  else if 20 ≤ nbits then
    if w < 2 ^ 20 then .ok (.irqop (BitVec.ofNat 20 w)) else .error .paddingNotZero
  else if 4 ≤ nbits then
    if w < 2 ^ 4 then .ok (.key4 (BitVec.ofNat 4 w)) else .error .paddingNotZero
  else .error .tooShort

/-- The decoder on a container's number, naming what it rejects. -/
def decodeContainer (nbits w : Nat) : Except Reject Instr :=
  match fromContainer nbits w with
  | .ok e => .ok (decode e)
  | .error r => .error r

/-- The decoder on a number of bytes (the host's question about a row of the table). -/
def decodeTableWord (nbits w : Nat) : Option Instr :=
  match decodeContainer nbits w with
  | .ok i => some i
  | .error _ => none

/-- A command word from its fields (R50): `{op, ch, data}`. -/
def encodeCmd (op : BitVec 4) (ch : Int) (data : Word32) : BitVec 44 :=
  op ++ BitVec.ofInt 8 ch ++ data

/-- The encoder, for well-formed operations (R51, R57, R60). -/
def encode : Instr → Encoded
  | .init ch data => .cmd (encodeCmd 0#4 ch data)
  | .read ch data => .cmd (encodeCmd 1#4 ch data)
  | .write ch data => .cmd (encodeCmd 2#4 ch data)
  | .setacc ch data => .cmd (encodeCmd 3#4 ch data)
  | .rsvd4 ch data => .cmd (encodeCmd 4#4 ch data)
  | .rsvd5 ch data => .cmd (encodeCmd 5#4 ch data)
  | .rsvd6 ch data => .cmd (encodeCmd 6#4 ch data)
  | .rsvd7 ch data => .cmd (encodeCmd 7#4 ch data)
  | .rsvd8 ch data => .cmd (encodeCmd 8#4 ch data)
  | .rsvd9 ch data => .cmd (encodeCmd 9#4 ch data)
  | .rsvd10 ch data => .cmd (encodeCmd 10#4 ch data)
  | .rsvd11 ch data => .cmd (encodeCmd 11#4 ch data)
  | .rsvd12 ch data => .cmd (encodeCmd 12#4 ch data)
  | .rsvd13 ch data => .cmd (encodeCmd 13#4 ch data)
  | .rsvd14 ch data => .cmd (encodeCmd 14#4 ch data)
  | .rsvd15 ch data => .cmd (encodeCmd 15#4 ch data)
  | .irq trigPin snap => .irqop (trigPin ++ snap)
  | .tk0 => .key4 0#4
  | .tk1 => .key4 1#4
  | .tk2 => .key4 2#4
  | .tk3 => .key4 3#4
  | .tk4 => .key4 4#4
  | .tk5 => .key4 5#4
  | .tk6 => .key4 6#4
  | .tk7 => .key4 7#4
  | .tk8 => .key4 8#4
  | .tk9 => .key4 9#4
  | .tk10 => .key4 10#4
  | .tk11 => .key4 11#4
  | .tk12 => .key4 12#4
  | .tk13 => .key4 13#4
  | .tk14 => .key4 14#4
  | .tk15 => .key4 15#4

/-- `mask` of the row in spec/opcode_table.json. -/
def Instr.tableMask : Instr → Nat
  | .init _ _ => 0xF0000000000
  | .read _ _ => 0xF0000000000
  | .write _ _ => 0xF0000000000
  | .setacc _ _ => 0xF0000000000
  | .rsvd4 _ _ => 0xF0000000000
  | .rsvd5 _ _ => 0xF0000000000
  | .rsvd6 _ _ => 0xF0000000000
  | .rsvd7 _ _ => 0xF0000000000
  | .rsvd8 _ _ => 0xF0000000000
  | .rsvd9 _ _ => 0xF0000000000
  | .rsvd10 _ _ => 0xF0000000000
  | .rsvd11 _ _ => 0xF0000000000
  | .rsvd12 _ _ => 0xF0000000000
  | .rsvd13 _ _ => 0xF0000000000
  | .rsvd14 _ _ => 0xF0000000000
  | .rsvd15 _ _ => 0xF0000000000
  | .irq _ _ => 0x00000
  | .tk0 => 0xF
  | .tk1 => 0xF
  | .tk2 => 0xF
  | .tk3 => 0xF
  | .tk4 => 0xF
  | .tk5 => 0xF
  | .tk6 => 0xF
  | .tk7 => 0xF
  | .tk8 => 0xF
  | .tk9 => 0xF
  | .tk10 => 0xF
  | .tk11 => 0xF
  | .tk12 => 0xF
  | .tk13 => 0xF
  | .tk14 => 0xF
  | .tk15 => 0xF

/-- `match` of the row in spec/opcode_table.json. -/
def Instr.tableMatch : Instr → Nat
  | .init _ _ => 0x00000000000
  | .read _ _ => 0x10000000000
  | .write _ _ => 0x20000000000
  | .setacc _ _ => 0x30000000000
  | .rsvd4 _ _ => 0x40000000000
  | .rsvd5 _ _ => 0x50000000000
  | .rsvd6 _ _ => 0x60000000000
  | .rsvd7 _ _ => 0x70000000000
  | .rsvd8 _ _ => 0x80000000000
  | .rsvd9 _ _ => 0x90000000000
  | .rsvd10 _ _ => 0xA0000000000
  | .rsvd11 _ _ => 0xB0000000000
  | .rsvd12 _ _ => 0xC0000000000
  | .rsvd13 _ _ => 0xD0000000000
  | .rsvd14 _ _ => 0xE0000000000
  | .rsvd15 _ _ => 0xF0000000000
  | .irq _ _ => 0x00000
  | .tk0 => 0x0
  | .tk1 => 0x1
  | .tk2 => 0x2
  | .tk3 => 0x3
  | .tk4 => 0x4
  | .tk5 => 0x5
  | .tk6 => 0x6
  | .tk7 => 0x7
  | .tk8 => 0x8
  | .tk9 => 0x9
  | .tk10 => 0xA
  | .tk11 => 0xB
  | .tk12 => 0xC
  | .tk13 => 0xD
  | .tk14 => 0xE
  | .tk15 => 0xF

end Sys2Proof
end

