-- ==== Sys2Proof/Machine/State.lean ====
section
/-!
DEFINITION. The state of the block (10_state.md), its input and output ports as far as they must be held between steps
(20_memory.md R39), the reasons a step can stop, and the state after reset.
-/

namespace Sys2Proof.Machine

/-- One record of the channel store (R10 to R15). -/
structure Channel where
  /-- R11: net ticks since the last drain, two's complement. -/
  tickDelta : Word32
  /-- R12: `{previous sample, most recent sample}`. -/
  history : BitVec 4
  /-- R13: when the channel was last drained, in milliseconds. -/
  lastReadTime : Word32
  /-- R14: the accumulated position, two's complement. -/
  position : Word32
  /-- R15: the acceleration factor, a binary32 pattern. -/
  accel : Word32
  deriving DecidableEq, Repr

/-- `ctl.dphase` (R21): the dispatcher's phase. -/
inductive DPhase where
  /-- `D_IDLE`: no service in progress. -/
  | idle
  /-- `D_QPIN`: about to query the trigger pin. -/
  | qpin
  /-- `D_QPORT`: about to query the port snapshot. -/
  | qport
  /-- `D_UPDATE`: about to update the channel. -/
  | update
  deriving DecidableEq, Repr

/-- The levels on the input ports at one rising edge of `clk` (R39). -/
structure Ports where
  /-- `int_n`: `true` is high. -/
  intN : Bool
  /-- `now_ms` (R40). -/
  nowMs : Word32
  /-- `pp_ack`: the answer of the current query is valid. -/
  ppAck : Bool
  /-- `pp_data`: the answer. -/
  ppData : BitVec 16
  /-- `cmd_valid`: a command word is offered. -/
  cmdValid : Bool
  /-- `cmd_word` (R50). -/
  cmdWord : BitVec 44
  /-- The model's own: whether an enabled ENTRY or UPDATE step, which waits for nothing outside the block, happens at
  this edge. R180 gives no cycle counts, so either may. DESIGN CHOICE, log entry 5; safe. -/
  advance : Bool
  deriving DecidableEq, Repr

/-- What the outside does to the block in one step. -/
inductive Input where
  /-- A rising edge of `clk` with these input levels. -/
  | edge (p : Ports)
  /-- `RESET` (R63, R165): `rst_n` asserted and released, `now_ms` at the release being `nowMs`. -/
  | reset (nowMs : Word32)
  /-- `IRQ p, s` (R60, R63): a falling edge, then the whole interrupt operation with these answers and no other event
  in between. -/
  | irqOp (w : BitVec 20)
  deriving DecidableEq, Repr

/-- The machine. -/
structure State where
  /-- The channel store (R10). -/
  chan : Vector Channel Config.nch
  /-- `ctl.line_armed` (R18). -/
  lineArmed : Bool
  /-- `ctl.gie` (R19). -/
  gie : Bool
  /-- `ctl.irq_pending` (R20). -/
  irqPending : Bool
  /-- `ctl.dphase` (R21). -/
  dphase : DPhase
  /-- `ctl.trig_pin` (R22). -/
  trigPin : BitVec 4
  /-- `ctl.snap` (R22). -/
  snap : BitVec 16
  /-- `ctl.int_n_q` (R23). -/
  intNQ : Bool
  /-- The response port (R39, R54): `some v` when the operation just ended was a command that responded `v`
  (`rsp_valid`, `rsp_data`). Log entry 10. -/
  rsp : Option Word32
  /-- The level of `now_ms` at the last sampling (R40). Log entry 4. -/
  nowMs : Word32
  /-- The inputs still to come, the next one first. Log entry 1. -/
  env : List Input
  /-- The model's own counter: the next free value to draw. Log entry 9. -/
  freeCount : Nat
  deriving DecidableEq, Repr

/-- Why the machine stops with a fault: for no reason. The block raises no exception and has no error output (R150),
and nothing in it is given the treatment `fault` (93_implementation_defined.md section 1), so this type has no
constructor. DEDUCED, log entry 20; unsafe if the hardware had a fault the spec does not tell of. -/
inductive Fault
  deriving DecidableEq, Repr

/-- Why the machine refuses an operation. -/
inductive Refusal where
  /-- Raised by an arm of `exec` whose instruction has no meaning yet; no arm of this model raises it. Safe. -/
  | notModelled (mnemonic : String)
  deriving DecidableEq, Repr

/-- A record as reset and INIT leave it at time `t` (R26). -/
def Channel.fresh (t : Word32) : Channel :=
  { tickDelta := 0#32, history := 0#4, lastReadTime := t, position := 0#32, accel := Config.accelOne }

/-- The state a hardware reset leaves when `now_ms` is `t` at its release (R26, R27, R165). `trig_pin` and `snap` are
unspecified there (R22); DESIGN CHOICE 0, log entry 7; unsafe. -/
def State.resetAt (t : Word32) : State :=
  { chan := Vector.replicate Config.nch (Channel.fresh t)
    lineArmed := false
    gie := true
    irqPending := false
    dphase := .idle
    trigPin := 0#4
    snap := 0#16
    intNQ := false
    rsp := none
    nowMs := t
    env := []
    freeCount := 0 }

/-- The machine right after reset, no input to come. `now_ms` is an input; DESIGN CHOICE 0, log entry 4; unsafe. -/
def State.reset : State := State.resetAt 0#32

end Sys2Proof.Machine
end

