-- ==== Sys2Proof/Machine/Flags.lean ====
section
/-!
DEFINITION. The block has no condition codes and no status flags (10_state.md R25). What it computes as single bits from
its state and its inputs stands here: the start condition, the ready and request outputs, the falling edge, the velocity
test.
-/

namespace Sys2Proof.Machine

/-- The start condition of the IRQ operation (R139). -/
def State.startable (s : State) : Bool :=
  decide (s.dphase = .idle) && s.irqPending && s.lineArmed && s.gie

/-- The output `cmd_ready` (R148). -/
def State.cmdReady (s : State) : Bool :=
  decide (s.dphase = .idle) && !(s.irqPending && s.lineArmed)

/-- The output `pp_req` (R39): a query is requested, in the two query phases (R91, R92). The spec does not say how
long it stands (R39); DESIGN CHOICE, log entry 27: from the state in which a query phase begins until its answer is taken,
with no gap between the two queries; unsafe. -/
def State.ppReq (s : State) : Bool := decide (s.dphase = .qpin) || decide (s.dphase = .qport)

/-- The output `pp_op` (R39): `false` (0) asks `PP_LAST_PIN`, `true` (1) asks `PP_READ_PORT`. With no query in
progress (`pp_req` = 0) the spec gives it no level; DESIGN CHOICE 0 there, log entry 26; unsafe. -/
def State.ppOp (s : State) : Bool := decide (s.dphase = .qport)

/-- R23: a falling edge of `int_n`, seen when its level is sampled. -/
def State.fallingEdge (s : State) (intN : Bool) : Bool := s.intNQ && !intN

/-- `FAST(d, e)` (R109, R113): the drained delta `d` over `e` milliseconds exceeds `VEL_THRESHOLD`, an argument (R7). -/
def fast (velThreshold : Nat) (d : Int) (e : Nat) : Bool :=
  decide (e ≠ 0) && decide (velThreshold * e < d.natAbs)

end Sys2Proof.Machine
end

