-- ==== Sys2Proof/Machine/Operands.lean ====
section
/-!
DEFINITION. The operand forms: the channel index of a command, the channel and the sample of an interrupt operation, the
transition key and its class (20_memory.md, 30_encoding.md, 40_channel_decoder.md).
-/

namespace Sys2Proof.Machine

/-- The range check of R34 and R52: the record a command's channel index reaches, if any. -/
def chanOf (ch : Int) : Option (Fin 8) :=
  if h : 0 ≤ ch ∧ ch < 8 then some ⟨ch.toNat, by omega⟩ else none

/-- R59: the channel that owns a pin, `trig_pin >> 1`. -/
def pinChannel (trigPin : BitVec 4) : Fin 8 := ⟨trigPin.toNat / 2, by omega⟩

/-- R58: channel `c`'s sample, `snap[2c+1:2c]`. -/
def sampleOf (snap : BitVec 16) (c : Fin 8) : BitVec 2 := snap.extractLsb' (2 * c.val) 2

/-- R56: `key = {history[1:0], sample}`. -/
def keyOf (history : BitVec 4) (sample : BitVec 2) : BitVec 4 := history.extractLsb' 0 2 ++ sample

/-- The five classes of transition keys (R57). -/
inductive KeyClass where
  | hold
  | inc
  | dec
  | skip
  | skipx
  deriving DecidableEq, Repr

/-- The table of R57. -/
def classOf (key : BitVec 4) : KeyClass :=
  match key.toNat with
  | 0 | 5 | 10 | 15 => .hold
  | 1 | 7 | 8 | 14 => .inc
  | 2 | 4 | 11 | 13 => .dec
  | 3 | 12 => .skip
  | _ => .skipx

/-- The delta of a class (R72 to R76), `SKIP_DELTA` an argument (R9). -/
def classDelta (skipDelta : Int) : KeyClass → Int
  | .hold => 0
  | .inc => 1
  | .dec => -1
  | .skip => skipDelta
  | .skipx => 0

/-- `DELTA(key)` (R71), `SKIP_DELTA` an argument (R9). -/
def delta (skipDelta : Int) (key : BitVec 4) : Int := classDelta skipDelta (classOf key)

/-- The channel the trigger pin selects (R93, step 4). -/
def State.trigChannel (s : State) : Fin 8 := pinChannel s.trigPin

/-- The key of the channel the trigger pin selects (R93, steps 4 to 6). -/
def State.trigKey (s : State) : BitVec 4 :=
  keyOf s.chan[s.trigChannel].history (sampleOf s.snap s.trigChannel)

end Sys2Proof.Machine
end

