-- ==== Sys2Proof/Machine/Ops.lean ====
section
/-!
DEFINITION. The named operations on the state: access to the channel store, the response, the interrupt line's calls
(60_exceptions.md R136), the pending latch, entering and leaving the interrupt operation (R140 to R146), its query
phases, and hardware reset.
-/

namespace Sys2Proof.Machine

/-- `chan[c] <- r`, the one way a record is written. -/
def State.setChan (c : Fin 8) (r : Channel) (s : State) : State := { s with chan := s.chan.set c r }

/-- `respond(v)` (R29, R54). -/
def State.respond (v : Word32) (s : State) : State := { s with rsp := some v }

/-- `attach(...)` (R136): the line is armed. -/
def State.attach (s : State) : State := { s with lineArmed := true }

/-- `detach()` (R136): the line is suppressed. -/
def State.detach (s : State) : State := { s with lineArmed := false }

/-- `suppress_all()` (R136). -/
def State.suppressAll (s : State) : State := { s with gie := false }

/-- `restore_all()` (R136). -/
def State.restoreAll (s : State) : State := { s with gie := true }

/-- `clear_pending_latch()` (R136). -/
def State.clearPending (s : State) : State := { s with irqPending := false }

/-- A falling edge of `int_n` sets the pending latch (R138). -/
def State.latchFall (s : State) : State := { s with irqPending := true }

/-- `ctl.dphase <- d`. -/
def State.setPhase (d : DPhase) (s : State) : State := { s with dphase := d }

/-- ENTRY (R140 to R142): how the one interrupt is taken. It saves nothing; steps 1 and 2. -/
def State.entry (s : State) : State := (s.suppressAll.detach.restoreAll).setPhase .qpin

/-- Steps 7 and 8 and the end of the interrupt operation (R145, R146). -/
def State.irqReturn (s : State) : State := (s.clearPending.attach).setPhase .idle

/-- QPIN (R91): the answer of `PP_LAST_PIN()` arrives. -/
def State.qpin (pin : BitVec 4) (s : State) : State := { s with trigPin := pin, dphase := .qport }

/-- QPORT (R92): the answer of `PP_READ_PORT()` arrives. -/
def State.qport (snap : BitVec 16) (s : State) : State := { s with snap := snap, dphase := .update }

/-- The record half of `TSTEP` (R70): the key becomes the channel's history. -/
def State.storeHistory (c : Fin 8) (key : BitVec 4) (s : State) : State :=
  s.setChan c { s.chan[c] with history := key }

/-- `ACC(c, d)` (R80, R81): add a delta, modulo 2^32. -/
def State.acc (c : Fin 8) (d : Int) (s : State) : State :=
  s.setChan c { s.chan[c] with tickDelta := wrapS32 (sval s.chan[c].tickDelta + d) }

/-- `TSTEP` and `ACC` on the channel the trigger pin selects, the key being `key` and its delta `d` (R70, R80). -/
def State.transition (key : BitVec 4) (d : Int) (s : State) : State :=
  (s.storeHistory s.trigChannel key).acc s.trigChannel d

/-- UPDATE (R93): steps 4 to 8. -/
def State.update (s : State) : State := (s.transition s.trigKey (delta Config.skipDelta s.trigKey)).irqReturn

/-- The inputs sampled at an edge of `clk`: the level of `int_n` for the next comparison (R23) and the time (R40); the
response of an earlier operation is over. -/
def State.sample (intN : Bool) (nowMs : Word32) (s : State) : State :=
  { s with intNQ := intN, nowMs := nowMs, rsp := none }

/-- The pending latch is set if an edge fell (R138). -/
def State.latchIf (fell : Bool) (s : State) : State := if fell then s.latchFall else s

/-- A hardware reset event (R165): the reset state at time `t`; `trig_pin` and `snap` become free values (R22, U13);
the inputs still to come are not the block's, and stay. -/
def State.hardwareReset (t : Word32) (s : State) : State :=
  { State.resetAt t with
    trigPin := Config.freeTrigPin s.freeCount
    snap := Config.freeSnap s.freeCount
    env := s.env
    freeCount := s.freeCount + 1 }

end Sys2Proof.Machine
end

