-- ==== Sys2Proof/Machine/ChannelDecoder.lean ====
section
/-!
DEFINITION. The sixteen transition keys (40_channel_decoder.md R70 to R76): the step of the state machine of the channel
the trigger pin selects, with its accumulate step (41_tick_accumulator.md R80). A key runs in phase `D_UPDATE`; steps 7 and 8
of the dispatcher come after it (R93). Log entry 12.
-/

namespace Sys2Proof.Machine

/-- TK0, class HOLD (R72). -/
def execTk0 (s : State) : Host.Outcome State Fault Refusal :=
  .next (s.transition 0#4 (classDelta Config.skipDelta .hold))

/-- TK1, class INC (R73). -/
def execTk1 (s : State) : Host.Outcome State Fault Refusal :=
  .next (s.transition 1#4 (classDelta Config.skipDelta .inc))

/-- TK2, class DEC (R74). -/
def execTk2 (s : State) : Host.Outcome State Fault Refusal :=
  .next (s.transition 2#4 (classDelta Config.skipDelta .dec))

/-- TK3, class SKIP (R75). -/
def execTk3 (s : State) : Host.Outcome State Fault Refusal :=
  .next (s.transition 3#4 (classDelta Config.skipDelta .skip))

/-- TK4, class DEC (R74). -/
def execTk4 (s : State) : Host.Outcome State Fault Refusal :=
  .next (s.transition 4#4 (classDelta Config.skipDelta .dec))

/-- TK5, class HOLD (R72). -/
def execTk5 (s : State) : Host.Outcome State Fault Refusal :=
  .next (s.transition 5#4 (classDelta Config.skipDelta .hold))

/-- TK6, class SKIPX (R76). -/
def execTk6 (s : State) : Host.Outcome State Fault Refusal :=
  .next (s.transition 6#4 (classDelta Config.skipDelta .skipx))

/-- TK7, class INC (R73). -/
def execTk7 (s : State) : Host.Outcome State Fault Refusal :=
  .next (s.transition 7#4 (classDelta Config.skipDelta .inc))

/-- TK8, class INC (R73). -/
def execTk8 (s : State) : Host.Outcome State Fault Refusal :=
  .next (s.transition 8#4 (classDelta Config.skipDelta .inc))

/-- TK9, class SKIPX (R76). -/
def execTk9 (s : State) : Host.Outcome State Fault Refusal :=
  .next (s.transition 9#4 (classDelta Config.skipDelta .skipx))

/-- TK10, class HOLD (R72). -/
def execTk10 (s : State) : Host.Outcome State Fault Refusal :=
  .next (s.transition 10#4 (classDelta Config.skipDelta .hold))

/-- TK11, class DEC (R74). -/
def execTk11 (s : State) : Host.Outcome State Fault Refusal :=
  .next (s.transition 11#4 (classDelta Config.skipDelta .dec))

/-- TK12, class SKIP (R75). -/
def execTk12 (s : State) : Host.Outcome State Fault Refusal :=
  .next (s.transition 12#4 (classDelta Config.skipDelta .skip))

/-- TK13, class DEC (R74). -/
def execTk13 (s : State) : Host.Outcome State Fault Refusal :=
  .next (s.transition 13#4 (classDelta Config.skipDelta .dec))

/-- TK14, class INC (R73). -/
def execTk14 (s : State) : Host.Outcome State Fault Refusal :=
  .next (s.transition 14#4 (classDelta Config.skipDelta .inc))

/-- TK15, class HOLD (R72). -/
def execTk15 (s : State) : Host.Outcome State Fault Refusal :=
  .next (s.transition 15#4 (classDelta Config.skipDelta .hold))

end Sys2Proof.Machine
end

