-- ==== Sys2Proof/Machine/HostCommands.lean ====
section
/-!
DEFINITION. The host commands INIT, WRITE, SETACC and the reserved opcodes (44_host_commands.md). Each is what an accepted
command does; when a command is accepted is R148, in Machine/Cycle.lean.
-/

namespace Sys2Proof.Machine

/-- All eight records fresh at time `t` (R26). -/
def State.freshChannels (t : Word32) (s : State) : State :=
  { s with chan := Vector.replicate Config.nch (Channel.fresh t) }

/-- INIT (R120 to R122). -/
def execInit (s : State) : Host.Outcome State Fault Refusal :=
  .next (((s.freshChannels s.nowMs).clearPending.attach.restoreAll).respond 0#32)

/-- WRITE `ch`, `v` (R123). -/
def execWrite (ch : Int) (v : Word32) (s : State) : Host.Outcome State Fault Refusal :=
  match chanOf ch with
  | some c => .next ((s.setChan c { s.chan[c] with position := v }).respond 0#32)
  | none => .next (s.respond 0#32)

/-- SETACC `ch`, `f` (R125, R126). -/
def execSetacc (ch : Int) (f : Word32) (s : State) : Host.Outcome State Fault Refusal :=
  match chanOf ch with
  | some c => .next ((s.setChan c { s.chan[c] with accel := f }).respond 0#32)
  | none => .next (s.respond 0#32)

/-- RSVD 4 (R127): no state changes, the response is 0. -/
def execRsvd4 (s : State) : Host.Outcome State Fault Refusal := .next (s.respond 0#32)

/-- RSVD 5 (R127): no state changes, the response is 0. -/
def execRsvd5 (s : State) : Host.Outcome State Fault Refusal := .next (s.respond 0#32)

/-- RSVD 6 (R127): no state changes, the response is 0. -/
def execRsvd6 (s : State) : Host.Outcome State Fault Refusal := .next (s.respond 0#32)

/-- RSVD 7 (R127): no state changes, the response is 0. -/
def execRsvd7 (s : State) : Host.Outcome State Fault Refusal := .next (s.respond 0#32)

/-- RSVD 8 (R127): no state changes, the response is 0. -/
def execRsvd8 (s : State) : Host.Outcome State Fault Refusal := .next (s.respond 0#32)

/-- RSVD 9 (R127): no state changes, the response is 0. -/
def execRsvd9 (s : State) : Host.Outcome State Fault Refusal := .next (s.respond 0#32)

/-- RSVD 10 (R127): no state changes, the response is 0. -/
def execRsvd10 (s : State) : Host.Outcome State Fault Refusal := .next (s.respond 0#32)

/-- RSVD 11 (R127): no state changes, the response is 0. -/
def execRsvd11 (s : State) : Host.Outcome State Fault Refusal := .next (s.respond 0#32)

/-- RSVD 12 (R127): no state changes, the response is 0. -/
def execRsvd12 (s : State) : Host.Outcome State Fault Refusal := .next (s.respond 0#32)

/-- RSVD 13 (R127): no state changes, the response is 0. -/
def execRsvd13 (s : State) : Host.Outcome State Fault Refusal := .next (s.respond 0#32)

/-- RSVD 14 (R127): no state changes, the response is 0. -/
def execRsvd14 (s : State) : Host.Outcome State Fault Refusal := .next (s.respond 0#32)

/-- RSVD 15 (R127): no state changes, the response is 0. -/
def execRsvd15 (s : State) : Host.Outcome State Fault Refusal := .next (s.respond 0#32)

end Sys2Proof.Machine
end

