-- ==== Sys2Proof/Machine/InterruptDispatcher.lean ====
section
/-!
DEFINITION. The IRQ operation as one function (42_interrupt_dispatcher.md R95; 30_encoding.md R60, R63).
-/

namespace Sys2Proof.Machine

/-- The four phase steps one after the other, no event between them (R90, R95). -/
def State.service (trigPin : BitVec 4) (snap : BitVec 16) (s : State) : State :=
  (((s.entry).qpin trigPin).qport snap).update

/-- `IRQ p, s` (R63): a falling edge, then the whole interrupt operation. Where the start condition (R139) does not hold
after the edge (line not armed, or a service in progress), the edge is latched (R138) and nothing starts. Log entry 11. -/
def execIrq (trigPin : BitVec 4) (snap : BitVec 16) (s : State) : Host.Outcome State Fault Refusal :=
  if s.latchFall.startable then .next (s.latchFall.service trigPin snap) else .next s.latchFall

end Sys2Proof.Machine
end

