-- ==== Sys2Proof/Machine/PositionReader.lean ====
section
/-!
DEFINITION. READ, the velocity scaler (43_position_reader.md): elapsed time, the value of a factor, the scaled delta, the
drain.
-/

namespace Sys2Proof.Machine

/-- `val32(b)` (R110): the value of a binary32 pattern. A finite one is the rational `num * 2^exp`. -/
inductive Val32 where
  | nan
  | posInf
  | negInf
  | finite (num : Int) (exp : Int)
  deriving DecidableEq, Repr

/-- `val32` (R110). -/
def val32 (b : Word32) : Val32 :=
  let sign : Int := if b.getLsbD 31 then -1 else 1
  let e : Nat := (b.extractLsb' 23 8).toNat
  let m : Nat := (b.extractLsb' 0 23).toNat
  if e = 255 then
    if m = 0 then (if b.getLsbD 31 then .negInf else .posInf) else .nan
  else if e = 0 then .finite (sign * m) (-149)
  else .finite (sign * (2 ^ 23 + m)) (e - 150)

/-- `trunc(num * 2^exp)` (R29): the integer part, toward zero. -/
def truncScaled (num : Int) (exp : Int) : Int :=
  if 0 ≤ exp then num * 2 ^ exp.toNat else num.tdiv (2 ^ (-exp).toNat)

/-- `SCALE(d, a)` (R111): the exact product truncated toward zero; `none` where the spec leaves the result unspecified
(R112). -/
def scale (d : Int) (a : Word32) : Option Int :=
  match val32 a with
  | .finite num exp => some (truncScaled (d * num) exp)
  | .nan => none
  | .posInf => none
  | .negInf => none

/-- Elapsed milliseconds modulo 2^32 (R105). -/
def elapsed (now last : Word32) : Nat := uval (now - last)

/-- The position READ leaves in a record at time `now` (R106, R115), `VEL_THRESHOLD` an argument (R7); `free` is the
value the spec leaves open (R112). -/
def readPosition (velThreshold : Nat) (r : Channel) (now free : Word32) : Word32 :=
  let d := sval r.tickDelta
  if fast velThreshold d (elapsed now r.lastReadTime) then
    match scale d r.accel with
    | some add => wrapS32 (sval r.position + add)
    | none => free
  else wrapS32 (sval r.position + d)

/-- The record READ leaves (R106, R107). -/
def drainRecord (velThreshold : Nat) (r : Channel) (now free : Word32) : Channel :=
  { r with position := readPosition velThreshold r now free, tickDelta := 0#32, lastReadTime := now }

/-- The drain of channel `c` and its response (R106 to R108). It uses up one free value, whether or not the position is
one, so that which value a later READ draws does not depend on the data (log entry 9). -/
def State.drain (velThreshold : Nat) (c : Fin 8) (s : State) : State :=
  { (s.setChan c (drainRecord velThreshold s.chan[c] s.nowMs (Config.freePosition s.freeCount))).respond
      (readPosition velThreshold s.chan[c] s.nowMs (Config.freePosition s.freeCount)) with
    freeCount := s.freeCount + 1 }

/-- READ `ch` (R106, R108, R114): the drain between `suppress_all()` and `restore_all()`, with `VEL_THRESHOLD` (R7) and
`NEUTRAL` (D13) as arguments. -/
def State.read (velThreshold : Nat) (neutral : Word32) (ch : Int) (s : State) : State :=
  match chanOf ch with
  | some c => (s.suppressAll.drain velThreshold c).restoreAll
  | none => s.respond neutral

/-- READ `ch` at this hardware's parameters. -/
def execRead (ch : Int) (s : State) : Host.Outcome State Fault Refusal :=
  .next (s.read Config.velThreshold Config.neutral ch)

end Sys2Proof.Machine
end

