-- ==== Sys2Proof/Machine/Dispatch.lean ====
section
/-!
DEFINITION. One arm for each operation: the meaning it calls.
-/

namespace Sys2Proof.Machine

def exec (i : Instr) (s : State) : Host.Outcome State Fault Refusal :=
  match i with
  | .init _ _ => Sys2Proof.Machine.execInit s
  | .read ch _ => Sys2Proof.Machine.execRead ch s
  | .write ch data => Sys2Proof.Machine.execWrite ch data s
  | .setacc ch data => Sys2Proof.Machine.execSetacc ch data s
  | .rsvd4 _ _ => Sys2Proof.Machine.execRsvd4 s
  | .rsvd5 _ _ => Sys2Proof.Machine.execRsvd5 s
  | .rsvd6 _ _ => Sys2Proof.Machine.execRsvd6 s
  | .rsvd7 _ _ => Sys2Proof.Machine.execRsvd7 s
  | .rsvd8 _ _ => Sys2Proof.Machine.execRsvd8 s
  | .rsvd9 _ _ => Sys2Proof.Machine.execRsvd9 s
  | .rsvd10 _ _ => Sys2Proof.Machine.execRsvd10 s
  | .rsvd11 _ _ => Sys2Proof.Machine.execRsvd11 s
  | .rsvd12 _ _ => Sys2Proof.Machine.execRsvd12 s
  | .rsvd13 _ _ => Sys2Proof.Machine.execRsvd13 s
  | .rsvd14 _ _ => Sys2Proof.Machine.execRsvd14 s
  | .rsvd15 _ _ => Sys2Proof.Machine.execRsvd15 s
  | .irq trigPin snap => Sys2Proof.Machine.execIrq trigPin snap s
  | .tk0 => Sys2Proof.Machine.execTk0 s
  | .tk1 => Sys2Proof.Machine.execTk1 s
  | .tk2 => Sys2Proof.Machine.execTk2 s
  | .tk3 => Sys2Proof.Machine.execTk3 s
  | .tk4 => Sys2Proof.Machine.execTk4 s
  | .tk5 => Sys2Proof.Machine.execTk5 s
  | .tk6 => Sys2Proof.Machine.execTk6 s
  | .tk7 => Sys2Proof.Machine.execTk7 s
  | .tk8 => Sys2Proof.Machine.execTk8 s
  | .tk9 => Sys2Proof.Machine.execTk9 s
  | .tk10 => Sys2Proof.Machine.execTk10 s
  | .tk11 => Sys2Proof.Machine.execTk11 s
  | .tk12 => Sys2Proof.Machine.execTk12 s
  | .tk13 => Sys2Proof.Machine.execTk13 s
  | .tk14 => Sys2Proof.Machine.execTk14 s
  | .tk15 => Sys2Proof.Machine.execTk15 s

end Sys2Proof.Machine
end

