-- ==== Sys2Proof/Machine/Cycle.lean ====
section
/-!
DEFINITION. What one input does to the block: which operation a rising edge of `clk` performs (60_exceptions.md R138 to
R149), and how an encoded operation is put before the block so that it is the next one to run.
-/

namespace Sys2Proof.Machine

/-- An outcome's next state, changed. -/
def andThen (o : Host.Outcome State Fault Refusal) (f : State → State) : Host.Outcome State Fault Refusal :=
  match o with
  | .next s => .next (f s)
  | .fault r => .fault r
  | .refused r => .refused r

/-- A rising edge of `clk`. The inputs are sampled; at most one operation happens; a falling edge of `int_n` is latched
after it (R149(a)), but for one at the instant of step 7, which is lost (R149(b)).
- `D_IDLE`: ENTRY if the start condition holds (R139), else an offered command if `cmd_ready` (R148).
- `D_QPIN`, `D_QPORT`: the answer, once it is there (R91, R92; `pp_data[15:4]` of a pin answer ignored).
- `D_UPDATE`: the transition step of the key, then steps 7 and 8 (R93). -/
def clkEdge (p : Ports) (s : State) : Host.Outcome State Fault Refusal :=
  let fell := s.fallingEdge p.intN
  let s0 := s.sample p.intN p.nowMs
  match s.dphase with
  | .idle =>
    if s0.startable then
      if p.advance then .next (s0.entry.latchIf fell) else .next (s0.latchIf fell)
    else if p.cmdValid && s0.cmdReady then
      andThen (Sys2Proof.Machine.exec (decodeCmd p.cmdWord) s0) (State.latchIf fell)
    else .next (s0.latchIf fell)
  | .qpin =>
    if p.ppAck then .next ((s0.qpin (p.ppData.extractLsb' 0 4)).latchIf fell) else .next (s0.latchIf fell)
  | .qport =>
    if p.ppAck then .next ((s0.qport p.ppData).latchIf fell) else .next (s0.latchIf fell)
  | .update =>
    if p.advance then andThen (Sys2Proof.Machine.exec (decodeKey s0.trigKey) s0) State.irqReturn
    else .next (s0.latchIf fell)

/-- The levels of an edge at which nothing outside changes: `int_n` and `now_ms` as last sampled, no answer, no command.
Log entry 3. -/
def State.quietPorts (s : State) : Ports :=
  { intN := s.intNQ, nowMs := s.nowMs, ppAck := false, ppData := 0#16,
    cmdValid := false, cmdWord := 0#44, advance := true }

/-- One input's effect. -/
def takeInput (i : Input) (s : State) : Host.Outcome State Fault Refusal :=
  match i with
  | .edge p => clkEdge p s
  | .reset t => .next (s.hardwareReset t)
  | .irqOp w => Sys2Proof.Machine.exec (decodeIrqOp w) { s with rsp := none }

/-- The next input's effect; with none to come, a quiet edge. -/
def takeNext (s : State) : Host.Outcome State Fault Refusal :=
  match s.env with
  | [] => clkEdge s.quietPorts s
  | i :: rest => takeInput i { s with env := rest }

/-- Put an input before those to come. -/
def State.pushInput (i : Input) (s : State) : State := { s with env := i :: s.env }

/-- The command word `w` offered at the next edge, and the block ready for it (R148): no service in progress, no
startable interrupt. -/
def State.presentCmd (w : BitVec 44) (s : State) : State :=
  { s with
    dphase := .idle
    irqPending := s.irqPending && !s.lineArmed
    env := .edge { s.quietPorts with cmdValid := true, cmdWord := w } :: s.env }

/-- The interrupt operation `w` next, and the line ready for it (R139): idle, armed, interrupts enabled. -/
def State.presentIrqOp (w : BitVec 20) (s : State) : State :=
  { s with dphase := .idle, lineArmed := true, gie := true, env := .irqOp w :: s.env }

/-- A snapshot in which channel `c`'s pair reads `v`, every other pin as in `snap`. -/
def snapWithPair (snap : BitVec 16) (c : Fin 8) (v : BitVec 2) : BitVec 16 :=
  (snap &&& ~~~(0b11#16 <<< (2 * c.val))) ||| (v.zeroExtend 16 <<< (2 * c.val))

/-- The key `k` next: the block at `D_UPDATE` with the last sample of the channel the trigger pin selects being
`k[3:2]` and its pair in the snapshot reading `k[1:0]`, so that the key formed is `k` (R56, R93). -/
def State.presentKey (k : BitVec 4) (s : State) : State :=
  let c := s.trigChannel
  { s.setChan c { s.chan[c] with history := s.chan[c].history.extractLsb' 2 2 ++ k.extractLsb' 2 2 } with
    dphase := .update
    snap := snapWithPair s.snap c (k.extractLsb' 0 2)
    env := .edge s.quietPorts :: s.env }

/-- An encoded operation put before the block. Log entry 14. -/
def State.present (e : Encoded) (s : State) : State :=
  match e with
  | .cmd w => s.presentCmd w
  | .irqop w => s.presentIrqOp w
  | .key4 k => s.presentKey k

/-- The same, from a container of bits; one that holds no operation changes nothing. -/
def State.presentContainer (nbits w : Nat) (s : State) : State :=
  match fromContainer nbits w with
  | .ok e => s.present e
  | .error _ => s

end Sys2Proof.Machine
end

