-- ==== Sys2Proof/Machine/Step.lean ====
section
/-!
DEFINITION. One step of the machine, and where the host puts an operation for the next step to run.
-/

namespace Sys2Proof.Machine

/-- One step: the next input's effect on the block (Machine/Cycle.lean). -/
def step (s : State) : Host.Outcome State Fault Refusal := takeNext s

/-- The operation whose bits are `w` (in a container of `nbits` bits) put where the next step runs it: log entry 14. -/
def State.withFetchWord (s : State) (nbits w : Nat) : State := s.presentContainer nbits w

end Sys2Proof.Machine
end

