-- ==== Sys2Proof/Safety.lean ====
section
/-!
DEFINITION. The terms claims are stated in: what stays the same, who names which record, the invariant of the dispatcher,
the two conditions 93_implementation_defined.md names for a safety predicate (U3, U11), and the spec's own arithmetic over
the rationals (R29, R110), against which READ is held.
-/

namespace Sys2Proof.Machine

/-- Every control and hidden bit but `ctl.gie` is the same (R18, R20 to R23). -/
abbrev SameControlButGie (s t : State) : Prop :=
  t.lineArmed = s.lineArmed ∧ t.irqPending = s.irqPending ∧ t.dphase = s.dphase ∧
    t.trigPin = s.trigPin ∧ t.snap = s.snap ∧ t.intNQ = s.intNQ

/-- Every control and hidden bit is the same (R18 to R23). -/
abbrev SameControl (s t : State) : Prop := SameControlButGie s t ∧ t.gie = s.gie

/-- The inputs held in the state are the same. -/
abbrev SameInputs (s t : State) : Prop := t.nowMs = s.nowMs ∧ t.env = s.env

/-- Every record but `c` is the same. -/
abbrev SameRecordsBut (c : Fin 8) (s t : State) : Prop := ∀ c' : Fin 8, c' ≠ c → t.chan[c'] = s.chan[c']

/-- The channel an operation names: by its index (R31), or by the trigger pin (R93). -/
def namedChannel (i : Instr) (s : State) : Option (Fin 8) :=
  match i with
  | .read ch _ | .write ch _ | .setacc ch _ => chanOf ch
  | .irq trigPin _ => some (pinChannel trigPin)
  | .tk0 | .tk1 | .tk2 | .tk3 | .tk4 | .tk5 | .tk6 | .tk7 => some s.trigChannel
  | .tk8 | .tk9 | .tk10 | .tk11 | .tk12 | .tk13 | .tk14 | .tk15 => some s.trigChannel
  | .init _ _ | .rsvd4 _ _ | .rsvd5 _ _ | .rsvd6 _ _ | .rsvd7 _ _ | .rsvd8 _ _ | .rsvd9 _ _ => none
  | .rsvd10 _ _ | .rsvd11 _ _ | .rsvd12 _ _ | .rsvd13 _ _ | .rsvd14 _ _ | .rsvd15 _ _ => none

/-- The columns of R16's table of writers. -/
inductive Column where
  | irq
  | read
  | write
  | setacc
  | init
  | none
  deriving DecidableEq, Repr

/-- The column an operation belongs to; a transition key is part of the interrupt operation. -/
def columnOf (i : Instr) : Column :=
  match i with
  | .init _ _ => .init
  | .read _ _ => .read
  | .write _ _ => .write
  | .setacc _ _ => .setacc
  | .rsvd4 _ _ | .rsvd5 _ _ | .rsvd6 _ _ | .rsvd7 _ _ | .rsvd8 _ _ | .rsvd9 _ _ => .none
  | .rsvd10 _ _ | .rsvd11 _ _ | .rsvd12 _ _ | .rsvd13 _ _ | .rsvd14 _ _ | .rsvd15 _ _ => .none
  | .irq _ _ => .irq
  | .tk0 | .tk1 | .tk2 | .tk3 | .tk4 | .tk5 | .tk6 | .tk7 => .irq
  | .tk8 | .tk9 | .tk10 | .tk11 | .tk12 | .tk13 | .tk14 | .tk15 => .irq

/-- What holds between any two operations: interrupts are globally enabled (R19); during a service the line is suppressed
and its latch still set (R140, R141, R145); a response stands only while no service is in progress (R44, R148). -/
abbrev State.DispatcherInv (s : State) : Prop :=
  s.gie = true ∧ (s.dphase ≠ .idle → s.lineArmed = false ∧ s.irqPending = true) ∧
    (s.rsp ≠ none → s.dphase = .idle)

/-- The block is idle, nothing is pending and the line was last seen low (R147, R174). -/
abbrev State.Deaf (s : State) : Prop := s.dphase = .idle ∧ s.irqPending = false ∧ s.intNQ = false

/-- The input is an edge of `clk` at which `int_n` is low. -/
def Input.lineLow (i : Input) : Prop := ∃ p : Ports, i = .edge p ∧ p.intN = false

/-- Two states agree on everything but record `c` and the response (for isolation between channels). -/
abbrev AgreeBut (c : Fin 8) (s t : State) : Prop :=
  SameRecordsBut c s t ∧ SameControl s t ∧ SameInputs s t ∧ t.freeCount = s.freeCount

/-- The value of a finite binary32 pattern as a rational (R110); `none` for a NaN or an infinity. -/
def finiteValue (b : Word32) : Option ℚ :=
  let sgn : ℚ := (-1) ^ (b.extractLsb' 31 1).toNat
  let e : Nat := (b.extractLsb' 23 8).toNat
  let m : Nat := (b.extractLsb' 0 23).toNat
  if e = 255 then none
  else if e = 0 then some (sgn * m * (2 : ℚ) ^ (-149 : ℤ))
  else some (sgn * (2 ^ 23 + m) * (2 : ℚ) ^ ((e : ℤ) - 150))

/-- `trunc(q)` (R29). -/
def truncRat (q : ℚ) : ℤ := if 0 ≤ q then ⌊q⌋ else ⌈q⌉

/-- R105: elapsed milliseconds, modulo 2^32. -/
def elapsedMs (now last : Word32) : ℤ := ((uval now : ℤ) - uval last) % 2 ^ 32

/-- R109 on a record at time `now`: the velocity since the last drain exceeds the threshold (R7), in ticks per
millisecond. -/
abbrev IsFast (velThreshold : Nat) (r : Channel) (now : Word32) : Prop :=
  elapsedMs now r.lastReadTime ≠ 0 ∧ velThreshold * elapsedMs now r.lastReadTime < |sval r.tickDelta|

/-- R71's list of deltas, indexed by key. -/
def deltaList : List Int := [0, 1, -1, 0, -1, 0, 0, 1, 1, 0, 0, -1, 0, -1, 1, 0]

/-- R56's second form of the key: `((history << 2) | sample) & 0xF`, with R58's sample
`(snap >> 2c) & 3`. -/
def keyByShift (history : BitVec 4) (snap : BitVec 16) (c : Nat) : Nat :=
  (history.toNat * 4 + snap.toNat / 4 ^ c % 4) % 16

/-- The net ticks of channel `c` over a list of interrupt operations `(trig_pin, snap)`, from its history (R82). -/
def netTicks (c : Fin 8) (history : BitVec 4) : List (BitVec 4 × BitVec 16) → Int
  | [] => 0
  | (pin, snap) :: rest =>
    if pinChannel pin = c then
      delta Config.skipDelta (keyOf history (sampleOf snap c)) + netTicks c (keyOf history (sampleOf snap c)) rest
    else netTicks c history rest

/-- The net ticks of a sequence of samples of one channel, from its history (S4). -/
def sampleTicks (history : BitVec 4) : List (BitVec 2) → Int
  | [] => 0
  | v :: rest => delta Config.skipDelta (keyOf history v) + sampleTicks (keyOf history v) rest

/-- Five edges of `clk` on which the interrupt operation runs with no other event (R90, R95): `int_n` falls, ENTRY, the pin
answer, the port answer, UPDATE; `int_n` is high again after the port query, and time stands still. -/
def serviceInputs (s : State) (pin : BitVec 4) (snap : BitVec 16) : List Input :=
  [ .edge { s.quietPorts with intN := false },
    .edge { s.quietPorts with intN := false },
    .edge { s.quietPorts with intN := false, ppAck := true, ppData := pin.zeroExtend 16 },
    .edge { s.quietPorts with intN := false, ppAck := true, ppData := snap },
    .edge { s.quietPorts with intN := true } ]

/-- What one step performs: an operation, or none (R44, R139, R148). -/
inductive Performed where
  /-- No operation: the inputs are sampled (R23). -/
  | nothing
  /-- An accepted host command (R148). -/
  | command (i : Instr)
  /-- ENTRY (R140). -/
  | entry
  /-- QPIN, answered (R91). -/
  | qpin
  /-- QPORT, answered (R92). -/
  | qport
  /-- UPDATE (R93). -/
  | update
  /-- Hardware reset (R165). -/
  | reset
  /-- The test form of the interrupt operation (R60). -/
  | irqOp (w : BitVec 20)
  deriving DecidableEq, Repr

/-- What an edge with these input levels performs in a state (R91 to R93, R139, R148). -/
def State.performsAt (p : Ports) (s : State) : Performed :=
  match s.dphase with
  | .idle =>
    if s.irqPending && s.lineArmed then
      if s.gie && p.advance then .entry else .nothing
    else if p.cmdValid then .command (decodeCmd p.cmdWord) else .nothing
  | .qpin => if p.ppAck then .qpin else .nothing
  | .qport => if p.ppAck then .qport else .nothing
  | .update => if p.advance then .update else .nothing

/-- What the next step performs. -/
def State.performs (s : State) : Performed :=
  match s.env with
  | [] => s.performsAt s.quietPorts
  | .edge p :: _ => s.performsAt p
  | .reset _ :: _ => .reset
  | .irqOp w :: _ => .irqOp w

/-- The column of R16 a step's operation belongs to; UPDATE is the part of the interrupt operation that writes a
record. -/
def Performed.column : Performed → Column
  | .command i => columnOf i
  | .update => .irq
  | .irqOp _ => .irq
  | .reset => .init
  | .nothing => .none
  | .entry => .none
  | .qpin => .none
  | .qport => .none

/-- The channel a step's operation names (R17). -/
def Performed.names (s : State) : Performed → Option (Fin 8)
  | .command i => namedChannel i s
  | .update => some s.trigChannel
  | .irqOp w => some (pinChannel (w.extractLsb' 16 4))
  | .reset => none
  | .nothing => none
  | .entry => none
  | .qpin => none
  | .qport => none

/-- The next step empties channel `c`'s accumulator: a READ of `c`, an INIT or a reset (R82). -/
abbrev State.drains (c : Fin 8) (s : State) : Prop :=
  s.performs.column = .init ∨ (s.performs.column = .read ∧ s.performs.names s = some c)

/-- The delta channel `c`'s accumulator takes in the next step (R71): of the transition of its UPDATE, or of a test-form
interrupt that can start. -/
def State.ticksAt (c : Fin 8) (s : State) : Int :=
  match s.performs with
  | .update => if s.trigChannel = c then deltaList.getD (keyByShift s.chan[c].history s.snap c.val) 0 else 0
  | .irqOp w =>
    if pinChannel (w.extractLsb' 16 4) = c ∧ s.dphase = .idle ∧ s.lineArmed = true ∧ s.gie = true then
      deltaList.getD (keyByShift s.chan[c].history (w.extractLsb' 0 16) c.val) 0
    else 0
  | .nothing => 0
  | .command _ => 0
  | .entry => 0
  | .qpin => 0
  | .qport => 0
  | .reset => 0

/-- The sum of the deltas of channel `c`'s transitions over the next steps (R82). -/
def runTicks (c : Fin 8) : Nat → State → Int
  | 0, _ => 0
  | n + 1, s =>
    s.ticksAt c +
      match step s with
      | .next t => runTicks c n t
      | .fault _ => 0
      | .refused _ => 0

/-- What a transition key does (R70, R80): the channel the trigger pin selects takes the key as its history and adds `d`
to its accumulator; nothing else changes. -/
def TransitionEffect (i : Instr) (key : BitVec 4) (d : Int) (s : State) : Prop :=
  ∃ t, exec i s = .next t ∧
    t.chan[s.trigChannel] = { s.chan[s.trigChannel] with
      history := key, tickDelta := wrapS32 (sval s.chan[s.trigChannel].tickDelta + d) } ∧
    SameRecordsBut s.trigChannel s t ∧ SameControl s t ∧ SameInputs s t ∧
    t.rsp = s.rsp ∧ t.freeCount = s.freeCount

/-- As `TransitionEffect` for a key whose delta is 0: the accumulator is left as it was. -/
def TransitionKeepsTicks (i : Instr) (key : BitVec 4) (s : State) : Prop :=
  ∃ t, exec i s = .next t ∧
    t.chan[s.trigChannel] = { s.chan[s.trigChannel] with history := key } ∧
    SameRecordsBut s.trigChannel s t ∧ SameControl s t ∧ SameInputs s t ∧
    t.rsp = s.rsp ∧ t.freeCount = s.freeCount

end Sys2Proof.Machine
end

