-- ==== Sys2Proof/Certificates/Slice0/Obligations.lean ====
section
/-!
DEFINITION. The statements for the provers. Each docstring says which rule of spec/ it formalises.
-/

open Sys2Proof Sys2Proof.Machine

/-! ### Encodings -/

/-- R51: the operation each value of `op` names; the other two fields are handed on whole (R52, R53). -/
def Obligations.OpcodeTableDecodes : Prop :=
  ∀ (ch : BitVec 8) (data : Word32),
    decodeCmd (0#4 ++ ch ++ data) = .init ch.toInt data ∧
    decodeCmd (1#4 ++ ch ++ data) = .read ch.toInt data ∧
    decodeCmd (2#4 ++ ch ++ data) = .write ch.toInt data ∧
    decodeCmd (3#4 ++ ch ++ data) = .setacc ch.toInt data ∧
    decodeCmd (4#4 ++ ch ++ data) = .rsvd4 ch.toInt data ∧
    decodeCmd (5#4 ++ ch ++ data) = .rsvd5 ch.toInt data ∧
    decodeCmd (6#4 ++ ch ++ data) = .rsvd6 ch.toInt data ∧
    decodeCmd (7#4 ++ ch ++ data) = .rsvd7 ch.toInt data ∧
    decodeCmd (8#4 ++ ch ++ data) = .rsvd8 ch.toInt data ∧
    decodeCmd (9#4 ++ ch ++ data) = .rsvd9 ch.toInt data ∧
    decodeCmd (10#4 ++ ch ++ data) = .rsvd10 ch.toInt data ∧
    decodeCmd (11#4 ++ ch ++ data) = .rsvd11 ch.toInt data ∧
    decodeCmd (12#4 ++ ch ++ data) = .rsvd12 ch.toInt data ∧
    decodeCmd (13#4 ++ ch ++ data) = .rsvd13 ch.toInt data ∧
    decodeCmd (14#4 ++ ch ++ data) = .rsvd14 ch.toInt data ∧
    decodeCmd (15#4 ++ ch ++ data) = .rsvd15 ch.toInt data

/-- R52: `ch` is the signed value of `cmd_word[39:32]`, in `-128 .. 127`; it reaches a record exactly when
`cmd_word[39:35]` is zero, and then the record of that number; INIT ignores it. -/
def Obligations.ChannelFieldIsSigned : Prop :=
  (∀ w : BitVec 44, cmdCh w = (w.extractLsb' 32 8).toInt ∧ -128 ≤ cmdCh w ∧ cmdCh w ≤ 127 ∧
    ((0 ≤ cmdCh w ∧ cmdCh w < 8) ↔ w.extractLsb' 35 5 = 0#5) ∧
    ((chanOf (cmdCh w)).isSome = true ↔ w.extractLsb' 35 5 = 0#5) ∧
    (∀ c : Fin 8, chanOf (cmdCh w) = some c → cmdCh w = (c.val : Int))) ∧
  (∀ (ch ch' : Int) (data data' : Word32) (s : State), exec (.init ch data) s = exec (.init ch' data') s)

/-- 30_encoding.md R50 to R60: every well-formed operation is what its encoding decodes to. -/
def Obligations.DecodeOfEncode : Prop :=
  ∀ i : Instr, i.wellFormed = true → decode (encode i) = i

/-- 30_encoding.md R50 to R60: every command word, every `IRQOP` value and every key is the encoding of what it
decodes to, and that operation is well-formed: no bit is lost. -/
def Obligations.EncodeOfDecode : Prop :=
  ∀ e : Encoded, (decode e).wellFormed = true ∧ encode (decode e) = e

/-- Words the spec writes out (30_encoding.md R62, 95_test_vectors.md S2, V3, V8) decode to the operations they
stand for. -/
def Obligations.WrittenWordsDecode : Prop :=
  decodeCmd 0x00000000000#44 = .init 0 0#32 ∧
  decodeCmd 0x10300000000#44 = .read 3 0#32 ∧
  decodeCmd 0x1FF00000000#44 = .read (-1) 0#32 ∧
  decodeCmd 0x200000001F4#44 = .write 0 500#32 ∧
  decodeCmd 0x3F840000000#44 = .setacc (-8) 0x40000000#32 ∧
  decodeCmd 0x9031234ABCD#44 = .rsvd9 3 0x1234ABCD#32 ∧
  decodeIrqOp 0x7FF7F#20 = .irq 7#4 0xFF7F#16 ∧
  decodeKey 0b1101#4 = .tk13

/-! ### Reset and INIT -/

/-- R26: after hardware reset and after every INIT every record is fresh at the time sampled. -/
def Obligations.ResetAndInitRecords : Prop :=
  (∀ (s : State) (t : Word32) (rest : List Input), ∃ u, step { s with env := .reset t :: rest } = .next u ∧
    ∀ c : Fin 8, u.chan[c] = { tickDelta := 0#32, history := 0b0000#4, lastReadTime := t, position := 0#32,
                               accel := 0x3F800000#32 }) ∧
  (∀ (s : State) (ch : Int) (data : Word32), ∃ u, exec (.init ch data) s = .next u ∧
    ∀ c : Fin 8, u.chan[c] = { tickDelta := 0#32, history := 0b0000#4, lastReadTime := s.nowMs, position := 0#32,
                               accel := 0x3F800000#32 })

/-- R27: the control state after hardware reset (whatever was in progress), and after an INIT in `D_IDLE`. -/
def Obligations.ResetAndInitControl : Prop :=
  (∀ (s : State) (t : Word32) (rest : List Input), ∃ u, step { s with env := .reset t :: rest } = .next u ∧
    u.lineArmed = false ∧ u.gie = true ∧ u.irqPending = false ∧ u.dphase = .idle ∧ u.intNQ = false ∧
    u.env = rest) ∧
  (∀ (s : State) (ch : Int) (data : Word32), s.dphase = .idle → ∃ u, exec (.init ch data) s = .next u ∧
    u.lineArmed = true ∧ u.gie = true ∧ u.irqPending = false ∧ u.dphase = .idle ∧ u.intNQ = s.intNQ)

/-- R120: INIT, with its frame: what it leaves as it was. -/
def Obligations.InitInitializesEverything : Prop :=
  ∀ (s : State) (ch : Int) (data : Word32), ∃ t, exec (.init ch data) s = .next t ∧
    (∀ c : Fin 8, t.chan[c] = { tickDelta := 0#32, history := 0#4, lastReadTime := s.nowMs, position := 0#32,
                                accel := 0x3F800000#32 }) ∧
    t.irqPending = false ∧ t.lineArmed = true ∧ t.gie = true ∧ t.rsp = some 0#32 ∧
    t.dphase = s.dphase ∧ t.trigPin = s.trigPin ∧ t.snap = s.snap ∧ t.intNQ = s.intNQ ∧
    SameInputs s t ∧ t.freeCount = s.freeCount

/-! ### Host commands -/

/-- R123: WRITE, valid and invalid channel, with its frame. -/
def Obligations.WriteOverwritesPosition : Prop :=
  (∀ (s : State) (c : Fin 8) (v : Word32), ∃ t, exec (.write (c.val : Int) v) s = .next t ∧
    t.chan[c] = { s.chan[c] with position := v } ∧ SameRecordsBut c s t ∧ t.rsp = some 0#32 ∧
    SameControl s t ∧ SameInputs s t ∧ t.freeCount = s.freeCount) ∧
  (∀ (s : State) (ch : Int) (v : Word32), ch < 0 ∨ 8 ≤ ch →
    exec (.write ch v) s = .next { s with rsp := some 0#32 })

/-- R125: SETACC, valid and invalid channel, with its frame. -/
def Obligations.SetaccOverwritesFactor : Prop :=
  (∀ (s : State) (c : Fin 8) (f : Word32), ∃ t, exec (.setacc (c.val : Int) f) s = .next t ∧
    t.chan[c] = { s.chan[c] with accel := f } ∧ SameRecordsBut c s t ∧ t.rsp = some 0#32 ∧
    SameControl s t ∧ SameInputs s t ∧ t.freeCount = s.freeCount) ∧
  (∀ (s : State) (ch : Int) (f : Word32), ch < 0 ∨ 8 ≤ ch →
    exec (.setacc ch f) s = .next { s with rsp := some 0#32 })

/-- R127: a reserved opcode is accepted, changes no state and responds 0. -/
def Obligations.ReservedOpcodesChangeNothing : Prop :=
  ∀ (s : State) (ch : Int) (data : Word32) (i : Instr),
    i ∈ [.rsvd4 ch data, .rsvd5 ch data, .rsvd6 ch data, .rsvd7 ch data, .rsvd8 ch data, .rsvd9 ch data,
         .rsvd10 ch data, .rsvd11 ch data, .rsvd12 ch data, .rsvd13 ch data, .rsvd14 ch data, .rsvd15 ch data] →
    exec i s = .next { s with rsp := some 0#32 }

/-- R34, R151: a READ, WRITE or SETACC whose index is outside `0 .. 7` changes no state and responds 0. -/
def Obligations.InvalidChannelChangesNothing : Prop :=
  ∀ (s : State) (ch : Int) (data : Word32), ch < 0 ∨ 8 ≤ ch →
    ∀ i ∈ [Instr.read ch data, Instr.write ch data, Instr.setacc ch data],
      exec i s = .next { s with rsp := some 0#32 }

/-! ### READ -/

/-- R106 with R105, R107, R109, R111, R115: READ of a valid channel, held against exact arithmetic. `add` is the
drained delta, or its exact product with the factor truncated toward zero when the velocity exceeds the threshold;
where the factor has no finite value nothing is said of `add` (R112). With its frame, and the invalid channel
(R114). -/
def Obligations.ReadDrainsIntoPosition : Prop :=
  (∀ (s : State) (c : Fin 8) (data : Word32), ∃ (t : State) (add : Int),
    exec (.read (c.val : Int) data) s = .next t ∧
    (¬ IsFast 11 s.chan[c] s.nowMs → add = sval s.chan[c].tickDelta) ∧
    (IsFast 11 s.chan[c] s.nowMs → ∀ f : ℚ, finiteValue s.chan[c].accel = some f →
      add = truncRat (sval s.chan[c].tickDelta * f)) ∧
    t.chan[c] = { s.chan[c] with
      position := wrapS32 (sval s.chan[c].position + add), tickDelta := 0#32, lastReadTime := s.nowMs } ∧
    t.rsp = some t.chan[c].position ∧
    SameRecordsBut c s t ∧ SameControlButGie s t ∧ t.gie = true ∧ SameInputs s t) ∧
  (∀ (s : State) (ch : Int) (data : Word32), ch < 0 ∨ 8 ≤ ch →
    exec (.read ch data) s = .next { s with rsp := some 0#32 })

/-- R114: READ of an invalid channel. -/
def Obligations.ReadInvalidChannel : Prop :=
  ∀ (s : State) (ch : Int) (data : Word32), ch < 0 ∨ 8 ≤ ch →
    exec (.read ch data) s = .next { s with rsp := some 0#32 }

/-- R107: a READ leaves nothing pending and the time it sampled, and a second READ of the channel, at whatever
time, with no transition in between returns the same position. -/
def Obligations.SecondReadAddsNothing : Prop :=
  ∀ (s : State) (c : Fin 8) (data data' now' : Word32), ∃ t u,
    exec (.read (c.val : Int) data) s = .next t ∧
    t.chan[c].tickDelta = 0#32 ∧ t.chan[c].lastReadTime = s.nowMs ∧
    exec (.read (c.val : Int) data') { t with nowMs := now' } = .next u ∧
    u.chan[c].position = t.chan[c].position ∧ u.rsp = t.rsp ∧ u.chan[c].tickDelta = 0#32

/-- R113: with zero elapsed time the delta is added unscaled, whatever its size and whatever the factor. -/
def Obligations.ZeroElapsedReadIsUnscaled : Prop :=
  ∀ (s : State) (c : Fin 8) (data : Word32), s.chan[c].lastReadTime = s.nowMs →
    ∃ t, exec (.read (c.val : Int) data) s = .next t ∧
      t.chan[c] = { s.chan[c] with
        position := wrapS32 (sval s.chan[c].position + sval s.chan[c].tickDelta),
        tickDelta := 0#32, lastReadTime := s.nowMs } ∧
      t.rsp = some (wrapS32 (sval s.chan[c].position + sval s.chan[c].tickDelta))

/-- R117: with the factor 1.0 the raw delta is added whatever the velocity, and no READ writes a factor. -/
def Obligations.FactorOneAddsTheRawDelta : Prop :=
  (∀ d : Int, scale d 0x3F800000#32 = some d) ∧
  (∀ (s : State) (c : Fin 8) (data : Word32), s.chan[c].accel = 0x3F800000#32 →
    ∃ t, exec (.read (c.val : Int) data) s = .next t ∧
      t.chan[c].position = wrapS32 (sval s.chan[c].position + sval s.chan[c].tickDelta)) ∧
  (∀ (s t : State) (ch : Int) (data : Word32), exec (.read ch data) s = .next t →
    ∀ c : Fin 8, t.chan[c].accel = s.chan[c].accel)

/-- R109 with R7: the velocity test is the exact comparison of the rational velocity with the threshold, whichever the
threshold, and its stated consequences; the threshold of this hardware is 11. -/
def Obligations.FastIsTheExactVelocityTest : Prop :=
  (∀ (v : Nat) (d : Int) (e : Nat), fast v d e = true ↔ (e ≠ 0 ∧ (v : ℚ) < |(d : ℚ)| / e)) ∧
  (∀ (v : Nat) (d : Int) (e : Nat), fast v (-d) e = fast v d e) ∧
  (∀ v e : Nat, fast v 0 e = false) ∧
  (∀ (d : Int) (e : Nat), fast 11 d e = true → 12 ≤ |d|) ∧
  Config.velThreshold = 11

/-- R7, R106, R109: READ with the threshold and the neutral value as arguments. At whichever positive threshold it drains
the channel as R106 says, and an invalid channel gives the neutral value; this hardware's READ is it at 11 and 0. -/
def Obligations.ReadTakesTheThreshold : Prop :=
  (∀ (s : State) (ch : Int) (data : Word32), exec (.read ch data) s = .next (s.read 11 0#32 ch)) ∧
  (∀ (v : Nat) (neutral : Word32) (s : State) (c : Fin 8), 0 < v → ∃ add : Int,
    (¬ IsFast v s.chan[c] s.nowMs → add = sval s.chan[c].tickDelta) ∧
    (IsFast v s.chan[c] s.nowMs → ∀ f : ℚ, finiteValue s.chan[c].accel = some f →
      add = truncRat (sval s.chan[c].tickDelta * f)) ∧
    (s.read v neutral c.val).chan[c] = { s.chan[c] with
      position := wrapS32 (sval s.chan[c].position + add), tickDelta := 0#32, lastReadTime := s.nowMs } ∧
    (s.read v neutral c.val).rsp = some (s.read v neutral c.val).chan[c].position ∧
    SameRecordsBut c s (s.read v neutral c.val)) ∧
  (∀ (v : Nat) (neutral : Word32) (s : State) (ch : Int), 0 < v → ch < 0 ∨ 8 ≤ ch →
    s.read v neutral ch = { s with rsp := some neutral })

/-- R110: the value the model reads from a pattern is the rational of R110, or none for the NaNs and the
infinities, told apart by fraction and sign; and R110's examples. The spec marks R110 as from general knowledge
(log entry 19). -/
def Obligations.FactorValueIsBinary32 : Prop :=
  (∀ b : Word32,
    ((b.extractLsb' 23 8 = 255#8 ∧ b.extractLsb' 0 23 ≠ 0#23) ↔ val32 b = .nan) ∧
    ((b.extractLsb' 23 8 = 255#8 ∧ b.extractLsb' 0 23 = 0#23 ∧ b.extractLsb' 31 1 = 0#1) ↔ val32 b = .posInf) ∧
    ((b.extractLsb' 23 8 = 255#8 ∧ b.extractLsb' 0 23 = 0#23 ∧ b.extractLsb' 31 1 = 1#1) ↔ val32 b = .negInf) ∧
    (b.extractLsb' 23 8 ≠ 255#8 →
      ∃ (num exp : Int), val32 b = .finite num exp ∧ finiteValue b = some ((num : ℚ) * (2 : ℚ) ^ exp))) ∧
  finiteValue 0x3F800000#32 = some 1 ∧ finiteValue 0x40000000#32 = some 2 ∧ finiteValue 0x3FC00000#32 = some (3 / 2) ∧
  finiteValue 0x3F000000#32 = some (1 / 2) ∧ finiteValue 0xBF800000#32 = some (-1) ∧
  finiteValue 0x00000000#32 = some 0 ∧ finiteValue 0x80000000#32 = some 0 ∧
  val32 0x7F800000#32 = .posInf ∧ val32 0x7FC00000#32 = .nan

/-- R111: for a finite factor `SCALE` is the exact rational product truncated toward zero, and it is odd. -/
def Obligations.ScaleTruncatesTheExactProduct : Prop :=
  ∀ (d : Int) (a : Word32) (f : ℚ), finiteValue a = some f →
    scale d a = some (truncRat (d * f)) ∧ scale (-d) a = some (-truncRat (d * f))

/-- R112: a fast READ with a NaN or infinite factor completes; the position is the free value of the model (log
entry 8), every other effect is as specified. -/
def Obligations.NonFiniteFactorReadCompletes : Prop :=
  ∀ (s : State) (c : Fin 8) (data : Word32), IsFast 11 s.chan[c] s.nowMs → finiteValue s.chan[c].accel = none →
    ∃ t, exec (.read (c.val : Int) data) s = .next t ∧
      t.chan[c] = { s.chan[c] with
        position := Config.freePosition s.freeCount, tickDelta := 0#32, lastReadTime := s.nowMs } ∧
      t.rsp = some (Config.freePosition s.freeCount) ∧ SameRecordsBut c s t

/-- R123, R175, R83: a WRITE does not drain; a slow READ after it returns the written value plus the pending ticks. -/
def Obligations.ReadAfterWrite : Prop :=
  ∀ (s : State) (c : Fin 8) (v data : Word32), ¬ IsFast 11 s.chan[c] s.nowMs →
    ∃ t u, exec (.write (c.val : Int) v) s = .next t ∧ exec (.read (c.val : Int) data) t = .next u ∧
      u.rsp = some (wrapS32 (sval v + sval s.chan[c].tickDelta)) ∧
      u.chan[c].position = wrapS32 (sval v + sval s.chan[c].tickDelta)

/-! ### The state machine and the accumulator -/

/-- R72: class HOLD. -/
def Obligations.HoldKeysKeepTicks : Prop :=
  ∀ s : State, TransitionKeepsTicks .tk0 0b0000#4 s ∧ TransitionKeepsTicks .tk5 0b0101#4 s ∧
    TransitionKeepsTicks .tk10 0b1010#4 s ∧ TransitionKeepsTicks .tk15 0b1111#4 s

/-- R73: class INC. -/
def Obligations.IncKeysCountUp : Prop :=
  ∀ s : State, TransitionEffect .tk1 0b0001#4 1 s ∧ TransitionEffect .tk7 0b0111#4 1 s ∧
    TransitionEffect .tk14 0b1110#4 1 s ∧ TransitionEffect .tk8 0b1000#4 1 s

/-- R74: class DEC. -/
def Obligations.DecKeysCountDown : Prop :=
  ∀ s : State, TransitionEffect .tk2 0b0010#4 (-1) s ∧ TransitionEffect .tk11 0b1011#4 (-1) s ∧
    TransitionEffect .tk13 0b1101#4 (-1) s ∧ TransitionEffect .tk4 0b0100#4 (-1) s

/-- R75: class SKIP, with `SKIP_DELTA = 0`. -/
def Obligations.SkipKeysKeepTicks : Prop :=
  ∀ s : State, TransitionKeepsTicks .tk3 0b0011#4 s ∧ TransitionKeepsTicks .tk12 0b1100#4 s

/-- R76: class SKIPX. -/
def Obligations.SkipxKeysKeepTicks : Prop :=
  ∀ s : State, TransitionKeepsTicks .tk6 0b0110#4 s ∧ TransitionKeepsTicks .tk9 0b1001#4 s

/-- R71: `DELTA` is the list of R71 on the sixteen keys, and the operation a key decodes to adds that delta. With
`SKIP_DELTA` as an argument (R9), it is what keys 3 and 12 give, and no other key. -/
def Obligations.DeltaListGovernsEveryKey : Prop :=
  (∀ (s : State) (k : BitVec 4), TransitionEffect (decodeKey k) k (deltaList.getD k.toNat 0) s) ∧
  (∀ (skipDelta : Int) (k : BitVec 4),
    delta skipDelta k = if k = 0b0011#4 ∨ k = 0b1100#4 then skipDelta else deltaList.getD k.toNat 0)

/-- R81: the accumulator wraps at both ends. -/
def Obligations.AccumulatorWraps : Prop :=
  (∀ s : State, s.chan[s.trigChannel].tickDelta = 0x7FFFFFFF#32 →
    ∃ t, exec .tk1 s = .next t ∧ t.chan[s.trigChannel].tickDelta = 0x80000000#32) ∧
  (∀ s : State, s.chan[s.trigChannel].tickDelta = 0x80000000#32 →
    ∃ t, exec .tk2 s = .next t ∧ t.chan[s.trigChannel].tickDelta = 0x7FFFFFFF#32)

/-- R73, R74 and property S4: from the sample 00, whatever the high half of the history, the cycle `00 -> 01 -> 11
-> 10 -> 00` counts +4 for each turn, and its reverse -4, for any number of turns. -/
def Obligations.FullCycleCountsFour : Prop :=
  ∀ (h : BitVec 2) (n : Nat),
    sampleTicks (h ++ 0b00#2) (List.replicate n [0b01#2, 0b11#2, 0b10#2, 0b00#2]).flatten = 4 * n ∧
    sampleTicks (h ++ 0b00#2) (List.replicate n [0b10#2, 0b11#2, 0b01#2, 0b00#2]).flatten = -4 * n

/-! ### The interrupt operation -/

/-- R95, which the spec derives from R91 to R93 and R140 to R146: the whole interrupt operation, with the key
formed by shifting (R56, R58, R59) and the delta from R71's list, and its frame. -/
def Obligations.IrqOperationNetEffect : Prop :=
  ∀ (s : State) (p : BitVec 4) (sn : BitVec 16), s.dphase = .idle → s.lineArmed = true → s.gie = true →
    ∃ t, exec (.irq p sn) s = .next t ∧
      (∀ c : Fin 8, c.val = p.toNat / 2 →
        (t.chan[c].history.toNat = keyByShift s.chan[c].history sn c.val ∧
         t.chan[c].tickDelta =
           wrapS32 (sval s.chan[c].tickDelta + deltaList.getD (keyByShift s.chan[c].history sn c.val) 0) ∧
         t.chan[c].position = s.chan[c].position ∧ t.chan[c].lastReadTime = s.chan[c].lastReadTime ∧
         t.chan[c].accel = s.chan[c].accel)) ∧
      (∀ c : Fin 8, c.val ≠ p.toNat / 2 → t.chan[c] = s.chan[c]) ∧
      t.irqPending = false ∧ t.lineArmed = true ∧ t.dphase = .idle ∧ t.gie = true ∧
      t.trigPin = p ∧ t.snap = sn ∧ t.intNQ = s.intNQ ∧ SameInputs s t ∧ t.rsp = s.rsp ∧
      t.freeCount = s.freeCount

/-- R138, R139, R63: where the start condition does not hold, the falling edge is latched and nothing else happens.
That the test form does so is the model's reading (log entry 11). -/
def Obligations.IrqWithoutStartOnlyLatches : Prop :=
  ∀ (s : State) (p : BitVec 4) (sn : BitVec 16), ¬ (s.dphase = .idle ∧ s.lineArmed = true ∧ s.gie = true) →
    exec (.irq p sn) s = .next { s with irqPending := true }

/-- R58, R59, R94: of its operands an interrupt operation uses the channel number `trig_pin >> 1` and that
channel's pair in the snapshot; `trig_pin[0]` and the other fourteen bits make no difference to any record. -/
def Obligations.IrqUsesOnePairOnly : Prop :=
  ∀ (s : State) (p p' : BitVec 4) (sn sn' : BitVec 16), p.toNat / 2 = p'.toNat / 2 →
    sn.toNat / 4 ^ (p.toNat / 2) % 4 = sn'.toNat / 4 ^ (p.toNat / 2) % 4 →
    ∃ t t', exec (.irq p sn) s = .next t ∧ exec (.irq p' sn') s = .next t' ∧ ∀ c : Fin 8, t'.chan[c] = t.chan[c]

/-! ### Whole-machine rules over the operations -/

/-- R16 with R11 to R15 and R84: an operation not listed in a cell never writes that field. -/
def Obligations.OnlyListedOperationsWriteAField : Prop :=
  ∀ (i : Instr) (s t : State), exec i s = .next t → ∀ c : Fin 8,
    (t.chan[c].tickDelta ≠ s.chan[c].tickDelta → columnOf i ∈ [.irq, .read, .init]) ∧
    (t.chan[c].history ≠ s.chan[c].history → columnOf i ∈ [.irq, .init]) ∧
    (t.chan[c].lastReadTime ≠ s.chan[c].lastReadTime → columnOf i ∈ [.read, .init]) ∧
    (t.chan[c].position ≠ s.chan[c].position → columnOf i ∈ [.read, .write, .init]) ∧
    (t.chan[c].accel ≠ s.chan[c].accel → columnOf i ∈ [.setacc, .init])

/-- R17: an operation that names a channel touches that record only; only INIT (and reset) writes more than one. -/
def Obligations.OnlyTheNamedRecordChanges : Prop :=
  ∀ (i : Instr) (s t : State), exec i s = .next t → columnOf i ≠ .init →
    ∀ c : Fin 8, namedChannel i s ≠ some c → t.chan[c] = s.chan[c]

/-- R150: nothing faults: every operation in every state, and every step, has a next state. That R150 leaves the
model no fault at all is log entry 20. -/
def Obligations.NothingFaults : Prop :=
  (∀ (i : Instr) (s : State), ∃ t, exec i s = .next t) ∧ (∀ s : State, ∃ t, step s = .next t)

/-! ### Whole-machine rules over the steps -/

/-- R16 to R22 as a rule about steps: a record field is written only by a step that performs an operation of its column in
R16's table (UPDATE and the test form count as IRQ, a reset as INIT); a control field only by the operations its rule
names; and only a command responds (R54). -/
def Obligations.StepWritesOnlyListedFields : Prop :=
  ∀ s t : State, step s = .next t →
    (∀ c : Fin 8,
      (t.chan[c].tickDelta ≠ s.chan[c].tickDelta → s.performs.column ∈ [.irq, .read, .init]) ∧
      (t.chan[c].history ≠ s.chan[c].history → s.performs.column ∈ [.irq, .init]) ∧
      (t.chan[c].lastReadTime ≠ s.chan[c].lastReadTime → s.performs.column ∈ [.read, .init]) ∧
      (t.chan[c].position ≠ s.chan[c].position → s.performs.column ∈ [.read, .write, .init]) ∧
      (t.chan[c].accel ≠ s.chan[c].accel → s.performs.column ∈ [.setacc, .init])) ∧
    (t.lineArmed ≠ s.lineArmed → s.performs = .entry ∨ s.performs.column ∈ [.irq, .init]) ∧
    (t.gie ≠ s.gie → s.performs.column ∈ [.read, .init]) ∧
    (t.dphase ≠ s.dphase → s.performs ∈ [.entry, .qpin, .qport, .update, .reset]) ∧
    (t.trigPin ≠ s.trigPin → s.performs ∈ [.qpin, .reset] ∨ ∃ w, s.performs = .irqOp w) ∧
    (t.snap ≠ s.snap → s.performs ∈ [.qport, .reset] ∨ ∃ w, s.performs = .irqOp w) ∧
    (t.rsp ≠ none → ∃ i, s.performs = .command i)

/-- R17 as a rule about steps: a step that performs neither INIT nor a reset leaves every record but the one its operation
names; a step that performs no operation names none. -/
def Obligations.StepTouchesOneRecord : Prop :=
  ∀ s t : State, step s = .next t → s.performs.column ≠ .init →
    ∀ c : Fin 8, s.performs.names s ≠ some c → t.chan[c] = s.chan[c]

/-- R23, R138 with R139, R148, R91 to R93: an edge that performs no operation. Idle with no startable interrupt and no
accepted command, or an enabled ENTRY or UPDATE that waits (log entry 5), or a query with no answer: the inputs are
sampled, a falling edge is latched, no response stands, and everything else is as it was. -/
def Obligations.EdgeWithNoOperation : Prop :=
  ∀ (s : State) (p : Ports) (rest : List Input), s.env = .edge p :: rest →
    (s.dphase = .idle ∧ s.irqPending = true ∧ s.lineArmed = true ∧ (s.gie = true → p.advance = false)) ∨
    (s.dphase = .idle ∧ ¬ (s.irqPending = true ∧ s.lineArmed = true) ∧ p.cmdValid = false) ∨
    (s.dphase = .qpin ∧ p.ppAck = false) ∨ (s.dphase = .qport ∧ p.ppAck = false) ∨
    (s.dphase = .update ∧ p.advance = false) →
    step s = .next { s with
      env := rest, intNQ := p.intN, nowMs := p.nowMs, rsp := none,
      irqPending := s.irqPending || (s.intNQ && !p.intN) }

/-- R166, R129: an idle, unarmed block, such as reset leaves, does nothing until a command is offered. Over any number of
edges without one, whatever the other inputs, records, line, mask, phase and scratch fields stay, and `cmd_ready` is 1. -/
def Obligations.NothingUntilACommand : Prop :=
  ∀ (n : Nat) (s : State), s.dphase = .idle → s.lineArmed = false →
    (∀ i ∈ s.env, ∃ p : Ports, i = .edge p ∧ p.cmdValid = false) →
    ∃ t, Host.Core.run core n s = .next t ∧ t.chan = s.chan ∧ t.lineArmed = false ∧ t.gie = s.gie ∧
      t.dphase = .idle ∧ t.trigPin = s.trigPin ∧ t.snap = s.snap ∧ t.cmdReady = true

/-! ### Steps -/

/-- A step runs the decoded operation: an accepted command word (then the edge is latched, R149), a key in
`D_UPDATE` (then steps 7 and 8, R93), and the test form of the interrupt operation. The form of this is the model's
(log entries 5, 11, 12, 22). -/
def Obligations.StepRunsTheDecodedOperation : Prop :=
  (∀ (s : State) (p : Ports) (rest : List Input), s.env = .edge p :: rest → p.cmdValid = true → s.cmdReady = true →
    step s = andThen (exec (decodeCmd p.cmdWord) ({ s with env := rest }.sample p.intN p.nowMs))
      (State.latchIf (s.fallingEdge p.intN))) ∧
  (∀ (s : State) (p : Ports) (rest : List Input), s.env = .edge p :: rest → s.dphase = .update → p.advance = true →
    step s = andThen (exec (decodeKey s.trigKey) ({ s with env := rest }.sample p.intN p.nowMs)) State.irqReturn) ∧
  (∀ (s : State) (w : BitVec 20) (rest : List Input), s.env = .irqOp w :: rest →
    step s = exec (decodeIrqOp w) { s with env := rest, rsp := none })

/-- R148: `cmd_ready`, and that an offered command is accepted (and responds in the same step) exactly when it
holds; offered while it does not, the word makes no difference to the step. -/
def Obligations.CommandAcceptance : Prop :=
  (∀ s : State, s.cmdReady = true ↔ (s.dphase = .idle ∧ ¬ (s.irqPending = true ∧ s.lineArmed = true))) ∧
  (∀ (s : State) (p : Ports) (rest : List Input), p.cmdValid = true → s.cmdReady = true →
    ∃ t, step { s with env := .edge p :: rest } = .next t ∧ t.rsp.isSome = true) ∧
  (∀ (s : State) (p : Ports) (rest : List Input) (w : BitVec 44), s.cmdReady = false →
    step { s with env := .edge { p with cmdValid := true, cmdWord := w } :: rest } =
      step { s with env := .edge { p with cmdValid := false } :: rest } ∧
    ∃ t, step { s with env := .edge { p with cmdValid := true, cmdWord := w } :: rest } = .next t ∧ t.rsp = none)

/-- R54: an accepted command produces one response: the updated position for a READ of a valid channel, else 0; a
step that accepts none produces none. -/
def Obligations.OneResponsePerCommand : Prop :=
  (∀ (s : State) (p : Ports) (rest : List Input), p.cmdValid = true → s.cmdReady = true →
    ∃ t, step { s with env := .edge p :: rest } = .next t ∧
      (∀ c : Fin 8, p.cmdWord.extractLsb' 40 4 = 1#4 → p.cmdWord.extractLsb' 32 8 = BitVec.ofNat 8 c.val →
        t.rsp = some t.chan[c].position) ∧
      (p.cmdWord.extractLsb' 40 4 ≠ 1#4 ∨ p.cmdWord.extractLsb' 35 5 ≠ 0#5 → t.rsp = some 0#32)) ∧
  (∀ (s : State) (p : Ports) (rest : List Input), ¬ (p.cmdValid = true ∧ s.cmdReady = true) →
    ∃ t, step { s with env := .edge p :: rest } = .next t ∧ t.rsp = none)

/-- R140 (R141, R142) under R139's start condition: ENTRY is the next operation, whether or not a command is
offered; it changes no record and does not clear the latch. That the enabled step happens at this edge is the
model's bit `advance` (log entry 5); that entry clears `gie` first is the spec's inference (D22) and shows in no
state after it. -/
def Obligations.InterruptEntry : Prop :=
  ∀ (s : State) (p : Ports) (rest : List Input), s.dphase = .idle → s.irqPending = true → s.lineArmed = true →
    s.gie = true → p.advance = true →
    ∃ t, step { s with env := .edge p :: rest } = .next t ∧
      t.lineArmed = false ∧ t.gie = true ∧ t.dphase = .qpin ∧ t.irqPending = true ∧ t.chan = s.chan ∧
      t.trigPin = s.trigPin ∧ t.snap = s.snap ∧ t.rsp = none

/-- R91: QPIN asks with `pp_op` = 0 and takes the low four bits of the answer; with no answer the phase waits.
That `pp_req` stands through the whole wait is log entry 27. -/
def Obligations.PinQueryPhase : Prop :=
  ∀ (s : State) (p : Ports) (rest : List Input), s.dphase = .qpin →
    s.ppReq = true ∧ s.ppOp = false ∧
    ∃ t, step { s with env := .edge p :: rest } = .next t ∧ t.chan = s.chan ∧ t.snap = s.snap ∧
      t.rsp = none ∧ t.lineArmed = s.lineArmed ∧ t.gie = s.gie ∧
      (p.ppAck = true → t.dphase = .qport ∧ t.trigPin.toNat = p.ppData.toNat % 16) ∧
      (p.ppAck = false → t.dphase = .qpin ∧ t.trigPin = s.trigPin)

/-- R92: QPORT asks with `pp_op` = 1 and takes the whole answer; with no answer the phase waits.
That `pp_req` stands through the whole wait is log entry 27. -/
def Obligations.PortQueryPhase : Prop :=
  ∀ (s : State) (p : Ports) (rest : List Input), s.dphase = .qport →
    s.ppReq = true ∧ s.ppOp = true ∧
    ∃ t, step { s with env := .edge p :: rest } = .next t ∧ t.chan = s.chan ∧ t.trigPin = s.trigPin ∧
      t.rsp = none ∧ t.lineArmed = s.lineArmed ∧ t.gie = s.gie ∧
      (p.ppAck = true → t.dphase = .update ∧ t.snap = p.ppData) ∧
      (p.ppAck = false → t.dphase = .qport ∧ t.snap = s.snap)

/-- R93 (R145, R146): UPDATE, with the key formed by shifting and the delta from R71's list. The latch is clear
after it even if `int_n` falls at that instant (R149(b)). That the step happens at this edge is the model's bit
`advance` (log entry 5). -/
def Obligations.UpdatePhase : Prop :=
  ∀ (s : State) (p : Ports) (rest : List Input), s.dphase = .update → p.advance = true →
    ∃ t, step { s with env := .edge p :: rest } = .next t ∧
      (∀ c : Fin 8, c.val = s.trigPin.toNat / 2 →
        (t.chan[c].history.toNat = keyByShift s.chan[c].history s.snap c.val ∧
         t.chan[c].tickDelta =
           wrapS32 (sval s.chan[c].tickDelta + deltaList.getD (keyByShift s.chan[c].history s.snap c.val) 0) ∧
         t.chan[c].position = s.chan[c].position ∧ t.chan[c].lastReadTime = s.chan[c].lastReadTime ∧
         t.chan[c].accel = s.chan[c].accel)) ∧
      (∀ c : Fin 8, c.val ≠ s.trigPin.toNat / 2 → t.chan[c] = s.chan[c]) ∧
      t.irqPending = false ∧ t.lineArmed = true ∧ t.dphase = .idle ∧ t.gie = s.gie ∧
      t.trigPin = s.trigPin ∧ t.snap = s.snap

/-- R23, R138, R149: an edge sets the latch in every state but at the instant of step 7; every step on an edge of
`clk` remembers the level; the latch is cleared only by step 7, by INIT, by reset or inside the test form. That an
edge at the instant an INIT is accepted is latched is the model's reading (log entry 6). -/
def Obligations.PendingLatch : Prop :=
  (∀ (s : State) (p : Ports) (rest : List Input), ∃ t, step { s with env := .edge p :: rest } = .next t ∧
    t.intNQ = p.intN ∧
    (s.intNQ = true ∧ p.intN = false → ¬ (s.dphase = .update ∧ p.advance = true) → t.irqPending = true) ∧
    (s.dphase = .update ∧ p.advance = true → t.irqPending = false) ∧
    (¬ (s.intNQ = true ∧ p.intN = false) → s.irqPending = false → t.irqPending = false)) ∧
  (∀ s t : State, step s = .next t → s.irqPending = true → t.irqPending = false →
    (s.dphase = .update) ∨
    (∃ p rest, s.env = .edge p :: rest ∧ p.cmdValid = true ∧ s.cmdReady = true ∧
      p.cmdWord.extractLsb' 40 4 = 0#4) ∨
    (∃ n rest, s.env = .reset n :: rest) ∨ (∃ w rest, s.env = .irqOp w :: rest))

/-- R24, R139: the phase advances `D_IDLE -> D_QPIN -> D_QPORT -> D_UPDATE -> D_IDLE` and in no other way, but for
a reset; it leaves `D_IDLE` only where the start condition holds. -/
def Obligations.PhaseAdvancesInOrder : Prop :=
  ∀ s t : State, step s = .next t →
    t.dphase = s.dphase ∨
    (s.dphase = .idle ∧ t.dphase = .qpin ∧ s.irqPending = true ∧ s.lineArmed = true ∧ s.gie = true) ∨
    (s.dphase = .qpin ∧ t.dphase = .qport) ∨
    (s.dphase = .qport ∧ t.dphase = .update) ∨
    (s.dphase = .update ∧ t.dphase = .idle) ∨
    ((∃ n rest, s.env = .reset n :: rest) ∧ t.dphase = .idle)

/-- R165: an answer that comes when no query is in progress (a late one, after a reset, for instance) makes no
difference. That this covers every edge outside a query is log entry 16, and that a query is in progress where
`pp_req` is 1 is log entry 27. -/
def Obligations.LateAnswerIsIgnored : Prop :=
  ∀ (s : State) (p : Ports) (rest : List Input) (a : BitVec 16), s.ppReq = false →
    step { s with env := .edge { p with ppAck := true, ppData := a } :: rest } =
      step { s with env := .edge { p with ppAck := false } :: rest }

/-- R129, R166: while the line is not armed no interrupt operation starts and no tick is counted: a step that
leaves the line unarmed stays in `D_IDLE`, and each record keeps its history and has its ticks as they were or
drained, or is fresh after a reset. -/
def Obligations.UnarmedLineCountsNothing : Prop :=
  ∀ s t : State, s.dphase = .idle → s.lineArmed = false → step s = .next t → t.lineArmed = false →
    t.dphase = .idle ∧
    ∀ c : Fin 8, (t.chan[c].history = s.chan[c].history ∨ ∃ n rest, s.env = .reset n :: rest) ∧
      (t.chan[c].tickDelta = s.chan[c].tickDelta ∨ t.chan[c].tickDelta = 0#32)

/-! ### Invariants, runs, refinement -/

/-- R19 (the spec's inference), R140, R141, R145: the dispatcher's invariant is kept by every step, from every
state that has it. That a response stands for one step is log entry 10. -/
def Obligations.DispatcherInvIsKept : Prop :=
  ∀ s t : State, s.DispatcherInv → step s = .next t → t.DispatcherInv

/-- R27: the state after reset has the dispatcher's invariant, and so has the state after a reset event. -/
def Obligations.DispatcherInvAtReset : Prop :=
  State.reset.DispatcherInv ∧ ∀ (s : State) (t : Word32), (s.hardwareReset t).DispatcherInv

/-- R45(b), R17: channels are independent. Two states that differ in record `c` and the response only still differ
there only after any number of steps on the same inputs. -/
def Obligations.ChannelsAreIsolated : Prop :=
  ∀ (c : Fin 8) (n : Nat) (s t : State), AgreeBut c s t →
    ∃ s' t', Host.Core.run core n s = .next s' ∧ Host.Core.run core n t = .next t' ∧ AgreeBut c s' t'

/-- R90, R95: the four phase steps, run edge by edge with `int_n` falling before them and rising with the port query
and no other event, have together the effect of the interrupt operation as one function. That the test form is one step
is log entry 11, that each enabled step happens at its edge is the bit `advance`, log entry 5. -/
def Obligations.PhasesRefineTheIrqOperation : Prop :=
  ∀ (s : State) (p : BitVec 4) (sn : BitVec 16) (rest : List Input),
    s.dphase = .idle → s.lineArmed = true → s.gie = true → s.irqPending = false → s.intNQ = true →
    Host.Core.run core 5 { s with env := serviceInputs s p sn ++ rest } =
    exec (.irq p sn) { s with env := rest, rsp := none }

/-- R174, R147 (both derived by the spec): a line that stays low. From an idle block with nothing pending and the
line last seen low, over any number of steps at which the line is low (a quiet input repeats the level), the block
stays so and counts nothing: every accumulator keeps its value or is drained. -/
def Obligations.LowLineIsNeverServed : Prop :=
  ∀ (n : Nat) (s : State), s.Deaf → (∀ i ∈ s.env, i.lineLow) →
    ∃ t, Host.Core.run core n s = .next t ∧ t.Deaf ∧
      ∀ c : Fin 8, t.chan[c].tickDelta = s.chan[c].tickDelta ∨ t.chan[c].tickDelta = 0#32

/-- R82, which the spec derives from R80, R26 and R107. (First clause) a READ of the channel, an INIT or a reset leaves
its accumulator 0. (Second) over any number of steps, on whatever inputs, of which none performs one of these, the
accumulator ends at its value plus the sum of the deltas of its own channel's transitions, modulo 2^32. -/
def Obligations.TicksSumBetweenDrains : Prop :=
  (∀ (s : State) (c : Fin 8), s.drains c → ∃ t, step s = .next t ∧ t.chan[c].tickDelta = 0#32) ∧
  (∀ (n : Nat) (s : State) (c : Fin 8),
    (∀ k < n, ∀ u, Host.Core.run core k s = .next u → ¬ u.drains c) →
    ∃ t, Host.Core.run core n s = .next t ∧
      t.chan[c].tickDelta = wrapS32 (sval s.chan[c].tickDelta + runTicks c n s))

/-- R82, R95 with log entry 11 (the test form as one step): over a list of test-form interrupts on an idle, armed block,
each accumulator ends at its value plus the sum of the deltas of its own channel's transitions, modulo 2^32, reckoned from
the list alone. -/
def Obligations.TicksSumOverTestInterrupts : Prop :=
  ∀ (ops : List (BitVec 4 × BitVec 16)) (s : State) (rest : List Input),
    s.dphase = .idle → s.lineArmed = true → s.gie = true →
    s.env = ops.map (fun o => Input.irqOp (o.1 ++ o.2)) ++ rest →
    ∃ t, Host.Core.run core ops.length s = .next t ∧ t.env = rest ∧
      ∀ c : Fin 8, t.chan[c].tickDelta =
          wrapS32 (sval s.chan[c].tickDelta + netTicks c s.chan[c].history ops) ∧
        t.chan[c].position = s.chan[c].position
end

