-- ==== Sys2Proof/Laws/Decode.lean ====
section
/-!
SUPPORT. The fields of an assembled command word and of an assembled `IRQOP` value, and words assembled from their fields.
-/

namespace Sys2Proof

/-- `op` of an assembled word. -/
@[simp] theorem cmdOp_append (op : BitVec 4) (ch : BitVec 8) (data : Word32) : cmdOp (op ++ ch ++ data) = op := by
  refine BitVec.eq_of_getLsbD_eq fun i hi => ?_
  have h1 : ¬ 40 + i < 32 := by omega
  have h2 : ¬ 40 + i - 32 < 8 := by omega
  have h3 : 40 + i - 32 - 8 = i := by omega
  simp only [cmdOp, BitVec.getLsbD_extractLsb', BitVec.getLsbD_append, h1, h2, h3, hi, if_false, decide_true,
    Bool.true_and]

/-- `ch` of an assembled word, signed (R52). -/
@[simp] theorem cmdCh_append (op : BitVec 4) (ch : BitVec 8) (data : Word32) : cmdCh (op ++ ch ++ data) = ch.toInt := by
  have : (op ++ ch ++ data).extractLsb' 32 8 = ch := by
    refine BitVec.eq_of_getLsbD_eq fun i hi => ?_
    have h1 : ¬ 32 + i < 32 := by omega
    have h3 : 32 + i - 32 = i := by omega
    simp only [BitVec.getLsbD_extractLsb', BitVec.getLsbD_append, h1, h3, hi, if_false, if_true, decide_true,
      Bool.true_and]
  rw [cmdCh, this]

/-- `data` of an assembled word. -/
@[simp] theorem cmdData_append (op : BitVec 4) (ch : BitVec 8) (data : Word32) : cmdData (op ++ ch ++ data) = data := by
  refine BitVec.eq_of_getLsbD_eq fun i hi => ?_
  simp only [cmdData, BitVec.getLsbD_extractLsb', BitVec.getLsbD_append, Nat.zero_add, hi, if_true, decide_true,
    Bool.true_and]

/-- A word is its three fields. -/
theorem cmdWord_of_fields (w : BitVec 44) : cmdOp w ++ w.extractLsb' 32 8 ++ cmdData w = w := by
  refine BitVec.eq_of_getLsbD_eq fun i hi => ?_
  simp only [cmdOp, cmdData, BitVec.getLsbD_append, BitVec.getLsbD_extractLsb']
  by_cases h1 : i < 32
  · simp [h1]
  · by_cases h2 : i - 32 < 8
    · simp [h1, h2]; congr 1; omega
    · have h3 : i - 32 - 8 < 4 := by omega
      simp [h1, h2, h3]; congr 1; omega

/-- A channel index that fits its field survives it (R52). -/
theorem toInt_chanField {ch : Int} (h : chanFieldFits ch = true) : (BitVec.ofInt 8 ch).toInt = ch := by
  simp only [chanFieldFits, Bool.and_eq_true, decide_eq_true_eq] at h
  rw [BitVec.toInt_ofInt]
  simp only [Int.bmod]
  omega

/-- A decoded channel index fits its field. -/
theorem chanFieldFits_toInt (ch : BitVec 8) : chanFieldFits ch.toInt = true := by
  have h1 := BitVec.toInt_lt (x := ch)
  have h2 := BitVec.le_toInt ch
  simp only [chanFieldFits, Bool.and_eq_true, decide_eq_true_eq]
  norm_num at h1 h2
  omega

/-- Assembling a word from decoded fields. -/
theorem encodeCmd_toInt (op : BitVec 4) (ch : BitVec 8) (data : Word32) :
    encodeCmd op ch.toInt data = (op ++ ch ++ data : BitVec 44) := by
  rw [encodeCmd, BitVec.ofInt_toInt]

end Sys2Proof
end

