-- ==== Sys2Proof/Laws/State.lean ====
section
/-!
SUPPORT. One lemma for each field of the state and each named operation on it: what the field holds afterwards.
-/

namespace Sys2Proof.Machine

/-! `setChan` -/

@[simp] theorem State.setChan_chan (s : State) (c : Fin 8) (r : Channel) :
    (s.setChan c r).chan = s.chan.set c r := rfl

@[simp] theorem State.setChan_lineArmed (s : State) (c : Fin 8) (r : Channel) :
    (s.setChan c r).lineArmed = s.lineArmed := rfl

@[simp] theorem State.setChan_gie (s : State) (c : Fin 8) (r : Channel) :
    (s.setChan c r).gie = s.gie := rfl

@[simp] theorem State.setChan_irqPending (s : State) (c : Fin 8) (r : Channel) :
    (s.setChan c r).irqPending = s.irqPending := rfl

@[simp] theorem State.setChan_dphase (s : State) (c : Fin 8) (r : Channel) :
    (s.setChan c r).dphase = s.dphase := rfl

@[simp] theorem State.setChan_trigPin (s : State) (c : Fin 8) (r : Channel) :
    (s.setChan c r).trigPin = s.trigPin := rfl

@[simp] theorem State.setChan_snap (s : State) (c : Fin 8) (r : Channel) :
    (s.setChan c r).snap = s.snap := rfl

@[simp] theorem State.setChan_intNQ (s : State) (c : Fin 8) (r : Channel) :
    (s.setChan c r).intNQ = s.intNQ := rfl

@[simp] theorem State.setChan_rsp (s : State) (c : Fin 8) (r : Channel) :
    (s.setChan c r).rsp = s.rsp := rfl

@[simp] theorem State.setChan_nowMs (s : State) (c : Fin 8) (r : Channel) :
    (s.setChan c r).nowMs = s.nowMs := rfl

@[simp] theorem State.setChan_env (s : State) (c : Fin 8) (r : Channel) :
    (s.setChan c r).env = s.env := rfl

@[simp] theorem State.setChan_freeCount (s : State) (c : Fin 8) (r : Channel) :
    (s.setChan c r).freeCount = s.freeCount := rfl

/-! `respond` -/

@[simp] theorem State.respond_chan (s : State) (v : Word32) :
    (s.respond v).chan = s.chan := rfl

@[simp] theorem State.respond_lineArmed (s : State) (v : Word32) :
    (s.respond v).lineArmed = s.lineArmed := rfl

@[simp] theorem State.respond_gie (s : State) (v : Word32) :
    (s.respond v).gie = s.gie := rfl

@[simp] theorem State.respond_irqPending (s : State) (v : Word32) :
    (s.respond v).irqPending = s.irqPending := rfl

@[simp] theorem State.respond_dphase (s : State) (v : Word32) :
    (s.respond v).dphase = s.dphase := rfl

@[simp] theorem State.respond_trigPin (s : State) (v : Word32) :
    (s.respond v).trigPin = s.trigPin := rfl

@[simp] theorem State.respond_snap (s : State) (v : Word32) :
    (s.respond v).snap = s.snap := rfl

@[simp] theorem State.respond_intNQ (s : State) (v : Word32) :
    (s.respond v).intNQ = s.intNQ := rfl

@[simp] theorem State.respond_rsp (s : State) (v : Word32) :
    (s.respond v).rsp = some v := rfl

@[simp] theorem State.respond_nowMs (s : State) (v : Word32) :
    (s.respond v).nowMs = s.nowMs := rfl

@[simp] theorem State.respond_env (s : State) (v : Word32) :
    (s.respond v).env = s.env := rfl

@[simp] theorem State.respond_freeCount (s : State) (v : Word32) :
    (s.respond v).freeCount = s.freeCount := rfl

/-! `attach` -/

@[simp] theorem State.attach_chan (s : State) :
    (s.attach).chan = s.chan := rfl

@[simp] theorem State.attach_lineArmed (s : State) :
    (s.attach).lineArmed = true := rfl

@[simp] theorem State.attach_gie (s : State) :
    (s.attach).gie = s.gie := rfl

@[simp] theorem State.attach_irqPending (s : State) :
    (s.attach).irqPending = s.irqPending := rfl

@[simp] theorem State.attach_dphase (s : State) :
    (s.attach).dphase = s.dphase := rfl

@[simp] theorem State.attach_trigPin (s : State) :
    (s.attach).trigPin = s.trigPin := rfl

@[simp] theorem State.attach_snap (s : State) :
    (s.attach).snap = s.snap := rfl

@[simp] theorem State.attach_intNQ (s : State) :
    (s.attach).intNQ = s.intNQ := rfl

@[simp] theorem State.attach_rsp (s : State) :
    (s.attach).rsp = s.rsp := rfl

@[simp] theorem State.attach_nowMs (s : State) :
    (s.attach).nowMs = s.nowMs := rfl

@[simp] theorem State.attach_env (s : State) :
    (s.attach).env = s.env := rfl

@[simp] theorem State.attach_freeCount (s : State) :
    (s.attach).freeCount = s.freeCount := rfl

/-! `detach` -/

@[simp] theorem State.detach_chan (s : State) :
    (s.detach).chan = s.chan := rfl

@[simp] theorem State.detach_lineArmed (s : State) :
    (s.detach).lineArmed = false := rfl

@[simp] theorem State.detach_gie (s : State) :
    (s.detach).gie = s.gie := rfl

@[simp] theorem State.detach_irqPending (s : State) :
    (s.detach).irqPending = s.irqPending := rfl

@[simp] theorem State.detach_dphase (s : State) :
    (s.detach).dphase = s.dphase := rfl

@[simp] theorem State.detach_trigPin (s : State) :
    (s.detach).trigPin = s.trigPin := rfl

@[simp] theorem State.detach_snap (s : State) :
    (s.detach).snap = s.snap := rfl

@[simp] theorem State.detach_intNQ (s : State) :
    (s.detach).intNQ = s.intNQ := rfl

@[simp] theorem State.detach_rsp (s : State) :
    (s.detach).rsp = s.rsp := rfl

@[simp] theorem State.detach_nowMs (s : State) :
    (s.detach).nowMs = s.nowMs := rfl

@[simp] theorem State.detach_env (s : State) :
    (s.detach).env = s.env := rfl

@[simp] theorem State.detach_freeCount (s : State) :
    (s.detach).freeCount = s.freeCount := rfl

/-! `suppressAll` -/

@[simp] theorem State.suppressAll_chan (s : State) :
    (s.suppressAll).chan = s.chan := rfl

@[simp] theorem State.suppressAll_lineArmed (s : State) :
    (s.suppressAll).lineArmed = s.lineArmed := rfl

@[simp] theorem State.suppressAll_gie (s : State) :
    (s.suppressAll).gie = false := rfl

@[simp] theorem State.suppressAll_irqPending (s : State) :
    (s.suppressAll).irqPending = s.irqPending := rfl

@[simp] theorem State.suppressAll_dphase (s : State) :
    (s.suppressAll).dphase = s.dphase := rfl

@[simp] theorem State.suppressAll_trigPin (s : State) :
    (s.suppressAll).trigPin = s.trigPin := rfl

@[simp] theorem State.suppressAll_snap (s : State) :
    (s.suppressAll).snap = s.snap := rfl

@[simp] theorem State.suppressAll_intNQ (s : State) :
    (s.suppressAll).intNQ = s.intNQ := rfl

@[simp] theorem State.suppressAll_rsp (s : State) :
    (s.suppressAll).rsp = s.rsp := rfl

@[simp] theorem State.suppressAll_nowMs (s : State) :
    (s.suppressAll).nowMs = s.nowMs := rfl

@[simp] theorem State.suppressAll_env (s : State) :
    (s.suppressAll).env = s.env := rfl

@[simp] theorem State.suppressAll_freeCount (s : State) :
    (s.suppressAll).freeCount = s.freeCount := rfl

/-! `restoreAll` -/

@[simp] theorem State.restoreAll_chan (s : State) :
    (s.restoreAll).chan = s.chan := rfl

@[simp] theorem State.restoreAll_lineArmed (s : State) :
    (s.restoreAll).lineArmed = s.lineArmed := rfl

@[simp] theorem State.restoreAll_gie (s : State) :
    (s.restoreAll).gie = true := rfl

@[simp] theorem State.restoreAll_irqPending (s : State) :
    (s.restoreAll).irqPending = s.irqPending := rfl

@[simp] theorem State.restoreAll_dphase (s : State) :
    (s.restoreAll).dphase = s.dphase := rfl

@[simp] theorem State.restoreAll_trigPin (s : State) :
    (s.restoreAll).trigPin = s.trigPin := rfl

@[simp] theorem State.restoreAll_snap (s : State) :
    (s.restoreAll).snap = s.snap := rfl

@[simp] theorem State.restoreAll_intNQ (s : State) :
    (s.restoreAll).intNQ = s.intNQ := rfl

@[simp] theorem State.restoreAll_rsp (s : State) :
    (s.restoreAll).rsp = s.rsp := rfl

@[simp] theorem State.restoreAll_nowMs (s : State) :
    (s.restoreAll).nowMs = s.nowMs := rfl

@[simp] theorem State.restoreAll_env (s : State) :
    (s.restoreAll).env = s.env := rfl

@[simp] theorem State.restoreAll_freeCount (s : State) :
    (s.restoreAll).freeCount = s.freeCount := rfl

/-! `clearPending` -/

@[simp] theorem State.clearPending_chan (s : State) :
    (s.clearPending).chan = s.chan := rfl

@[simp] theorem State.clearPending_lineArmed (s : State) :
    (s.clearPending).lineArmed = s.lineArmed := rfl

@[simp] theorem State.clearPending_gie (s : State) :
    (s.clearPending).gie = s.gie := rfl

@[simp] theorem State.clearPending_irqPending (s : State) :
    (s.clearPending).irqPending = false := rfl

@[simp] theorem State.clearPending_dphase (s : State) :
    (s.clearPending).dphase = s.dphase := rfl

@[simp] theorem State.clearPending_trigPin (s : State) :
    (s.clearPending).trigPin = s.trigPin := rfl

@[simp] theorem State.clearPending_snap (s : State) :
    (s.clearPending).snap = s.snap := rfl

@[simp] theorem State.clearPending_intNQ (s : State) :
    (s.clearPending).intNQ = s.intNQ := rfl

@[simp] theorem State.clearPending_rsp (s : State) :
    (s.clearPending).rsp = s.rsp := rfl

@[simp] theorem State.clearPending_nowMs (s : State) :
    (s.clearPending).nowMs = s.nowMs := rfl

@[simp] theorem State.clearPending_env (s : State) :
    (s.clearPending).env = s.env := rfl

@[simp] theorem State.clearPending_freeCount (s : State) :
    (s.clearPending).freeCount = s.freeCount := rfl

/-! `latchFall` -/

@[simp] theorem State.latchFall_chan (s : State) :
    (s.latchFall).chan = s.chan := rfl

@[simp] theorem State.latchFall_lineArmed (s : State) :
    (s.latchFall).lineArmed = s.lineArmed := rfl

@[simp] theorem State.latchFall_gie (s : State) :
    (s.latchFall).gie = s.gie := rfl

@[simp] theorem State.latchFall_irqPending (s : State) :
    (s.latchFall).irqPending = true := rfl

@[simp] theorem State.latchFall_dphase (s : State) :
    (s.latchFall).dphase = s.dphase := rfl

@[simp] theorem State.latchFall_trigPin (s : State) :
    (s.latchFall).trigPin = s.trigPin := rfl

@[simp] theorem State.latchFall_snap (s : State) :
    (s.latchFall).snap = s.snap := rfl

@[simp] theorem State.latchFall_intNQ (s : State) :
    (s.latchFall).intNQ = s.intNQ := rfl

@[simp] theorem State.latchFall_rsp (s : State) :
    (s.latchFall).rsp = s.rsp := rfl

@[simp] theorem State.latchFall_nowMs (s : State) :
    (s.latchFall).nowMs = s.nowMs := rfl

@[simp] theorem State.latchFall_env (s : State) :
    (s.latchFall).env = s.env := rfl

@[simp] theorem State.latchFall_freeCount (s : State) :
    (s.latchFall).freeCount = s.freeCount := rfl

/-! `setPhase` -/

@[simp] theorem State.setPhase_chan (s : State) (d : DPhase) :
    (s.setPhase d).chan = s.chan := rfl

@[simp] theorem State.setPhase_lineArmed (s : State) (d : DPhase) :
    (s.setPhase d).lineArmed = s.lineArmed := rfl

@[simp] theorem State.setPhase_gie (s : State) (d : DPhase) :
    (s.setPhase d).gie = s.gie := rfl

@[simp] theorem State.setPhase_irqPending (s : State) (d : DPhase) :
    (s.setPhase d).irqPending = s.irqPending := rfl

@[simp] theorem State.setPhase_dphase (s : State) (d : DPhase) :
    (s.setPhase d).dphase = d := rfl

@[simp] theorem State.setPhase_trigPin (s : State) (d : DPhase) :
    (s.setPhase d).trigPin = s.trigPin := rfl

@[simp] theorem State.setPhase_snap (s : State) (d : DPhase) :
    (s.setPhase d).snap = s.snap := rfl

@[simp] theorem State.setPhase_intNQ (s : State) (d : DPhase) :
    (s.setPhase d).intNQ = s.intNQ := rfl

@[simp] theorem State.setPhase_rsp (s : State) (d : DPhase) :
    (s.setPhase d).rsp = s.rsp := rfl

@[simp] theorem State.setPhase_nowMs (s : State) (d : DPhase) :
    (s.setPhase d).nowMs = s.nowMs := rfl

@[simp] theorem State.setPhase_env (s : State) (d : DPhase) :
    (s.setPhase d).env = s.env := rfl

@[simp] theorem State.setPhase_freeCount (s : State) (d : DPhase) :
    (s.setPhase d).freeCount = s.freeCount := rfl

/-! `entry` -/

@[simp] theorem State.entry_chan (s : State) :
    (s.entry).chan = s.chan := rfl

@[simp] theorem State.entry_lineArmed (s : State) :
    (s.entry).lineArmed = false := rfl

@[simp] theorem State.entry_gie (s : State) :
    (s.entry).gie = true := rfl

@[simp] theorem State.entry_irqPending (s : State) :
    (s.entry).irqPending = s.irqPending := rfl

@[simp] theorem State.entry_dphase (s : State) :
    (s.entry).dphase = .qpin := rfl

@[simp] theorem State.entry_trigPin (s : State) :
    (s.entry).trigPin = s.trigPin := rfl

@[simp] theorem State.entry_snap (s : State) :
    (s.entry).snap = s.snap := rfl

@[simp] theorem State.entry_intNQ (s : State) :
    (s.entry).intNQ = s.intNQ := rfl

@[simp] theorem State.entry_rsp (s : State) :
    (s.entry).rsp = s.rsp := rfl

@[simp] theorem State.entry_nowMs (s : State) :
    (s.entry).nowMs = s.nowMs := rfl

@[simp] theorem State.entry_env (s : State) :
    (s.entry).env = s.env := rfl

@[simp] theorem State.entry_freeCount (s : State) :
    (s.entry).freeCount = s.freeCount := rfl

/-! `irqReturn` -/

@[simp] theorem State.irqReturn_chan (s : State) :
    (s.irqReturn).chan = s.chan := rfl

@[simp] theorem State.irqReturn_lineArmed (s : State) :
    (s.irqReturn).lineArmed = true := rfl

@[simp] theorem State.irqReturn_gie (s : State) :
    (s.irqReturn).gie = s.gie := rfl

@[simp] theorem State.irqReturn_irqPending (s : State) :
    (s.irqReturn).irqPending = false := rfl

@[simp] theorem State.irqReturn_dphase (s : State) :
    (s.irqReturn).dphase = .idle := rfl

@[simp] theorem State.irqReturn_trigPin (s : State) :
    (s.irqReturn).trigPin = s.trigPin := rfl

@[simp] theorem State.irqReturn_snap (s : State) :
    (s.irqReturn).snap = s.snap := rfl

@[simp] theorem State.irqReturn_intNQ (s : State) :
    (s.irqReturn).intNQ = s.intNQ := rfl

@[simp] theorem State.irqReturn_rsp (s : State) :
    (s.irqReturn).rsp = s.rsp := rfl

@[simp] theorem State.irqReturn_nowMs (s : State) :
    (s.irqReturn).nowMs = s.nowMs := rfl

@[simp] theorem State.irqReturn_env (s : State) :
    (s.irqReturn).env = s.env := rfl

@[simp] theorem State.irqReturn_freeCount (s : State) :
    (s.irqReturn).freeCount = s.freeCount := rfl

/-! `qpin` -/

@[simp] theorem State.qpin_chan (s : State) (p : BitVec 4) :
    (s.qpin p).chan = s.chan := rfl

@[simp] theorem State.qpin_lineArmed (s : State) (p : BitVec 4) :
    (s.qpin p).lineArmed = s.lineArmed := rfl

@[simp] theorem State.qpin_gie (s : State) (p : BitVec 4) :
    (s.qpin p).gie = s.gie := rfl

@[simp] theorem State.qpin_irqPending (s : State) (p : BitVec 4) :
    (s.qpin p).irqPending = s.irqPending := rfl

@[simp] theorem State.qpin_dphase (s : State) (p : BitVec 4) :
    (s.qpin p).dphase = .qport := rfl

@[simp] theorem State.qpin_trigPin (s : State) (p : BitVec 4) :
    (s.qpin p).trigPin = p := rfl

@[simp] theorem State.qpin_snap (s : State) (p : BitVec 4) :
    (s.qpin p).snap = s.snap := rfl

@[simp] theorem State.qpin_intNQ (s : State) (p : BitVec 4) :
    (s.qpin p).intNQ = s.intNQ := rfl

@[simp] theorem State.qpin_rsp (s : State) (p : BitVec 4) :
    (s.qpin p).rsp = s.rsp := rfl

@[simp] theorem State.qpin_nowMs (s : State) (p : BitVec 4) :
    (s.qpin p).nowMs = s.nowMs := rfl

@[simp] theorem State.qpin_env (s : State) (p : BitVec 4) :
    (s.qpin p).env = s.env := rfl

@[simp] theorem State.qpin_freeCount (s : State) (p : BitVec 4) :
    (s.qpin p).freeCount = s.freeCount := rfl

/-! `qport` -/

@[simp] theorem State.qport_chan (s : State) (w : BitVec 16) :
    (s.qport w).chan = s.chan := rfl

@[simp] theorem State.qport_lineArmed (s : State) (w : BitVec 16) :
    (s.qport w).lineArmed = s.lineArmed := rfl

@[simp] theorem State.qport_gie (s : State) (w : BitVec 16) :
    (s.qport w).gie = s.gie := rfl

@[simp] theorem State.qport_irqPending (s : State) (w : BitVec 16) :
    (s.qport w).irqPending = s.irqPending := rfl

@[simp] theorem State.qport_dphase (s : State) (w : BitVec 16) :
    (s.qport w).dphase = .update := rfl

@[simp] theorem State.qport_trigPin (s : State) (w : BitVec 16) :
    (s.qport w).trigPin = s.trigPin := rfl

@[simp] theorem State.qport_snap (s : State) (w : BitVec 16) :
    (s.qport w).snap = w := rfl

@[simp] theorem State.qport_intNQ (s : State) (w : BitVec 16) :
    (s.qport w).intNQ = s.intNQ := rfl

@[simp] theorem State.qport_rsp (s : State) (w : BitVec 16) :
    (s.qport w).rsp = s.rsp := rfl

@[simp] theorem State.qport_nowMs (s : State) (w : BitVec 16) :
    (s.qport w).nowMs = s.nowMs := rfl

@[simp] theorem State.qport_env (s : State) (w : BitVec 16) :
    (s.qport w).env = s.env := rfl

@[simp] theorem State.qport_freeCount (s : State) (w : BitVec 16) :
    (s.qport w).freeCount = s.freeCount := rfl

/-! `sample` -/

@[simp] theorem State.sample_chan (s : State) (b : Bool) (t : Word32) :
    (s.sample b t).chan = s.chan := rfl

@[simp] theorem State.sample_lineArmed (s : State) (b : Bool) (t : Word32) :
    (s.sample b t).lineArmed = s.lineArmed := rfl

@[simp] theorem State.sample_gie (s : State) (b : Bool) (t : Word32) :
    (s.sample b t).gie = s.gie := rfl

@[simp] theorem State.sample_irqPending (s : State) (b : Bool) (t : Word32) :
    (s.sample b t).irqPending = s.irqPending := rfl

@[simp] theorem State.sample_dphase (s : State) (b : Bool) (t : Word32) :
    (s.sample b t).dphase = s.dphase := rfl

@[simp] theorem State.sample_trigPin (s : State) (b : Bool) (t : Word32) :
    (s.sample b t).trigPin = s.trigPin := rfl

@[simp] theorem State.sample_snap (s : State) (b : Bool) (t : Word32) :
    (s.sample b t).snap = s.snap := rfl

@[simp] theorem State.sample_intNQ (s : State) (b : Bool) (t : Word32) :
    (s.sample b t).intNQ = b := rfl

@[simp] theorem State.sample_rsp (s : State) (b : Bool) (t : Word32) :
    (s.sample b t).rsp = none := rfl

@[simp] theorem State.sample_nowMs (s : State) (b : Bool) (t : Word32) :
    (s.sample b t).nowMs = t := rfl

@[simp] theorem State.sample_env (s : State) (b : Bool) (t : Word32) :
    (s.sample b t).env = s.env := rfl

@[simp] theorem State.sample_freeCount (s : State) (b : Bool) (t : Word32) :
    (s.sample b t).freeCount = s.freeCount := rfl

/-! `freshChannels` -/

@[simp] theorem State.freshChannels_chan (s : State) (t : Word32) :
    (s.freshChannels t).chan = Vector.replicate Config.nch (Channel.fresh t) := rfl

@[simp] theorem State.freshChannels_lineArmed (s : State) (t : Word32) :
    (s.freshChannels t).lineArmed = s.lineArmed := rfl

@[simp] theorem State.freshChannels_gie (s : State) (t : Word32) :
    (s.freshChannels t).gie = s.gie := rfl

@[simp] theorem State.freshChannels_irqPending (s : State) (t : Word32) :
    (s.freshChannels t).irqPending = s.irqPending := rfl

@[simp] theorem State.freshChannels_dphase (s : State) (t : Word32) :
    (s.freshChannels t).dphase = s.dphase := rfl

@[simp] theorem State.freshChannels_trigPin (s : State) (t : Word32) :
    (s.freshChannels t).trigPin = s.trigPin := rfl

@[simp] theorem State.freshChannels_snap (s : State) (t : Word32) :
    (s.freshChannels t).snap = s.snap := rfl

@[simp] theorem State.freshChannels_intNQ (s : State) (t : Word32) :
    (s.freshChannels t).intNQ = s.intNQ := rfl

@[simp] theorem State.freshChannels_rsp (s : State) (t : Word32) :
    (s.freshChannels t).rsp = s.rsp := rfl

@[simp] theorem State.freshChannels_nowMs (s : State) (t : Word32) :
    (s.freshChannels t).nowMs = s.nowMs := rfl

@[simp] theorem State.freshChannels_env (s : State) (t : Word32) :
    (s.freshChannels t).env = s.env := rfl

@[simp] theorem State.freshChannels_freeCount (s : State) (t : Word32) :
    (s.freshChannels t).freeCount = s.freeCount := rfl

/-! `storeHistory` -/

@[simp] theorem State.storeHistory_chan (s : State) (c : Fin 8) (k : BitVec 4) :
    (s.storeHistory c k).chan = s.chan.set c { s.chan[c] with history := k } := rfl

@[simp] theorem State.storeHistory_lineArmed (s : State) (c : Fin 8) (k : BitVec 4) :
    (s.storeHistory c k).lineArmed = s.lineArmed := rfl

@[simp] theorem State.storeHistory_gie (s : State) (c : Fin 8) (k : BitVec 4) :
    (s.storeHistory c k).gie = s.gie := rfl

@[simp] theorem State.storeHistory_irqPending (s : State) (c : Fin 8) (k : BitVec 4) :
    (s.storeHistory c k).irqPending = s.irqPending := rfl

@[simp] theorem State.storeHistory_dphase (s : State) (c : Fin 8) (k : BitVec 4) :
    (s.storeHistory c k).dphase = s.dphase := rfl

@[simp] theorem State.storeHistory_trigPin (s : State) (c : Fin 8) (k : BitVec 4) :
    (s.storeHistory c k).trigPin = s.trigPin := rfl

@[simp] theorem State.storeHistory_snap (s : State) (c : Fin 8) (k : BitVec 4) :
    (s.storeHistory c k).snap = s.snap := rfl

@[simp] theorem State.storeHistory_intNQ (s : State) (c : Fin 8) (k : BitVec 4) :
    (s.storeHistory c k).intNQ = s.intNQ := rfl

@[simp] theorem State.storeHistory_rsp (s : State) (c : Fin 8) (k : BitVec 4) :
    (s.storeHistory c k).rsp = s.rsp := rfl

@[simp] theorem State.storeHistory_nowMs (s : State) (c : Fin 8) (k : BitVec 4) :
    (s.storeHistory c k).nowMs = s.nowMs := rfl

@[simp] theorem State.storeHistory_env (s : State) (c : Fin 8) (k : BitVec 4) :
    (s.storeHistory c k).env = s.env := rfl

@[simp] theorem State.storeHistory_freeCount (s : State) (c : Fin 8) (k : BitVec 4) :
    (s.storeHistory c k).freeCount = s.freeCount := rfl

/-! `acc` -/

@[simp] theorem State.acc_chan (s : State) (c : Fin 8) (d : Int) :
    (s.acc c d).chan = s.chan.set c { s.chan[c] with tickDelta := wrapS32 (sval s.chan[c].tickDelta + d) } := rfl

@[simp] theorem State.acc_lineArmed (s : State) (c : Fin 8) (d : Int) :
    (s.acc c d).lineArmed = s.lineArmed := rfl

@[simp] theorem State.acc_gie (s : State) (c : Fin 8) (d : Int) :
    (s.acc c d).gie = s.gie := rfl

@[simp] theorem State.acc_irqPending (s : State) (c : Fin 8) (d : Int) :
    (s.acc c d).irqPending = s.irqPending := rfl

@[simp] theorem State.acc_dphase (s : State) (c : Fin 8) (d : Int) :
    (s.acc c d).dphase = s.dphase := rfl

@[simp] theorem State.acc_trigPin (s : State) (c : Fin 8) (d : Int) :
    (s.acc c d).trigPin = s.trigPin := rfl

@[simp] theorem State.acc_snap (s : State) (c : Fin 8) (d : Int) :
    (s.acc c d).snap = s.snap := rfl

@[simp] theorem State.acc_intNQ (s : State) (c : Fin 8) (d : Int) :
    (s.acc c d).intNQ = s.intNQ := rfl

@[simp] theorem State.acc_rsp (s : State) (c : Fin 8) (d : Int) :
    (s.acc c d).rsp = s.rsp := rfl

@[simp] theorem State.acc_nowMs (s : State) (c : Fin 8) (d : Int) :
    (s.acc c d).nowMs = s.nowMs := rfl

@[simp] theorem State.acc_env (s : State) (c : Fin 8) (d : Int) :
    (s.acc c d).env = s.env := rfl

@[simp] theorem State.acc_freeCount (s : State) (c : Fin 8) (d : Int) :
    (s.acc c d).freeCount = s.freeCount := rfl

/-! `hardwareReset` -/

@[simp] theorem State.hardwareReset_chan (s : State) (t : Word32) :
    (s.hardwareReset t).chan = Vector.replicate Config.nch (Channel.fresh t) := rfl

@[simp] theorem State.hardwareReset_lineArmed (s : State) (t : Word32) :
    (s.hardwareReset t).lineArmed = false := rfl

@[simp] theorem State.hardwareReset_gie (s : State) (t : Word32) :
    (s.hardwareReset t).gie = true := rfl

@[simp] theorem State.hardwareReset_irqPending (s : State) (t : Word32) :
    (s.hardwareReset t).irqPending = false := rfl

@[simp] theorem State.hardwareReset_dphase (s : State) (t : Word32) :
    (s.hardwareReset t).dphase = .idle := rfl

@[simp] theorem State.hardwareReset_trigPin (s : State) (t : Word32) :
    (s.hardwareReset t).trigPin = Config.freeTrigPin s.freeCount := rfl

@[simp] theorem State.hardwareReset_snap (s : State) (t : Word32) :
    (s.hardwareReset t).snap = Config.freeSnap s.freeCount := rfl

@[simp] theorem State.hardwareReset_intNQ (s : State) (t : Word32) :
    (s.hardwareReset t).intNQ = false := rfl

@[simp] theorem State.hardwareReset_rsp (s : State) (t : Word32) :
    (s.hardwareReset t).rsp = none := rfl

@[simp] theorem State.hardwareReset_nowMs (s : State) (t : Word32) :
    (s.hardwareReset t).nowMs = t := rfl

@[simp] theorem State.hardwareReset_env (s : State) (t : Word32) :
    (s.hardwareReset t).env = s.env := rfl

@[simp] theorem State.hardwareReset_freeCount (s : State) (t : Word32) :
    (s.hardwareReset t).freeCount = s.freeCount + 1 := rfl

/-! `pushInput` -/

@[simp] theorem State.pushInput_chan (s : State) (i : Input) :
    (s.pushInput i).chan = s.chan := rfl

@[simp] theorem State.pushInput_lineArmed (s : State) (i : Input) :
    (s.pushInput i).lineArmed = s.lineArmed := rfl

@[simp] theorem State.pushInput_gie (s : State) (i : Input) :
    (s.pushInput i).gie = s.gie := rfl

@[simp] theorem State.pushInput_irqPending (s : State) (i : Input) :
    (s.pushInput i).irqPending = s.irqPending := rfl

@[simp] theorem State.pushInput_dphase (s : State) (i : Input) :
    (s.pushInput i).dphase = s.dphase := rfl

@[simp] theorem State.pushInput_trigPin (s : State) (i : Input) :
    (s.pushInput i).trigPin = s.trigPin := rfl

@[simp] theorem State.pushInput_snap (s : State) (i : Input) :
    (s.pushInput i).snap = s.snap := rfl

@[simp] theorem State.pushInput_intNQ (s : State) (i : Input) :
    (s.pushInput i).intNQ = s.intNQ := rfl

@[simp] theorem State.pushInput_rsp (s : State) (i : Input) :
    (s.pushInput i).rsp = s.rsp := rfl

@[simp] theorem State.pushInput_nowMs (s : State) (i : Input) :
    (s.pushInput i).nowMs = s.nowMs := rfl

@[simp] theorem State.pushInput_env (s : State) (i : Input) :
    (s.pushInput i).env = i :: s.env := rfl

@[simp] theorem State.pushInput_freeCount (s : State) (i : Input) :
    (s.pushInput i).freeCount = s.freeCount := rfl

/-! `latchIf` -/

@[simp] theorem State.latchIf_chan (s : State) (b : Bool) : (s.latchIf b).chan = s.chan := by
  cases b <;> rfl

@[simp] theorem State.latchIf_lineArmed (s : State) (b : Bool) : (s.latchIf b).lineArmed = s.lineArmed := by
  cases b <;> rfl

@[simp] theorem State.latchIf_gie (s : State) (b : Bool) : (s.latchIf b).gie = s.gie := by
  cases b <;> rfl

@[simp] theorem State.latchIf_irqPending (s : State) (b : Bool) : (s.latchIf b).irqPending = (b || s.irqPending) := by
  cases b <;> rfl

@[simp] theorem State.latchIf_dphase (s : State) (b : Bool) : (s.latchIf b).dphase = s.dphase := by
  cases b <;> rfl

@[simp] theorem State.latchIf_trigPin (s : State) (b : Bool) : (s.latchIf b).trigPin = s.trigPin := by
  cases b <;> rfl

@[simp] theorem State.latchIf_snap (s : State) (b : Bool) : (s.latchIf b).snap = s.snap := by
  cases b <;> rfl

@[simp] theorem State.latchIf_intNQ (s : State) (b : Bool) : (s.latchIf b).intNQ = s.intNQ := by
  cases b <;> rfl

@[simp] theorem State.latchIf_rsp (s : State) (b : Bool) : (s.latchIf b).rsp = s.rsp := by
  cases b <;> rfl

@[simp] theorem State.latchIf_nowMs (s : State) (b : Bool) : (s.latchIf b).nowMs = s.nowMs := by
  cases b <;> rfl

@[simp] theorem State.latchIf_env (s : State) (b : Bool) : (s.latchIf b).env = s.env := by
  cases b <;> rfl

@[simp] theorem State.latchIf_freeCount (s : State) (b : Bool) : (s.latchIf b).freeCount = s.freeCount := by
  cases b <;> rfl

/-! Records after `setChan` -/

/-- The record written reads as written. -/
theorem State.setChan_same (s : State) (c : Fin 8) (r : Channel) : (s.setChan c r).chan[c] = r := by
  simp

/-- Every other record is as it was. -/
theorem State.setChan_other (s : State) (c c' : Fin 8) (r : Channel) (h : c' ≠ c) :
    (s.setChan c r).chan[c'] = s.chan[c'] := by
  have : c.val ≠ c'.val := fun e => h (Fin.ext e.symm)
  simp [this]

/-- A record after `freshChannels`. -/
theorem State.freshChannels_record (s : State) (t : Word32) (c : Fin 8) :
    (s.freshChannels t).chan[c] = Channel.fresh t := by
  simp

end Sys2Proof.Machine
end

