-- ==== Sys2Proof/Laws/Ops.lean ====
section
/-!
SUPPORT. One lemma for each shared operation of Machine/: what it can do. Callers cite these and unfold nothing.
-/

namespace Sys2Proof.Machine

/-! ### Operands -/

/-- A valid index reaches the record of that number (R31). -/
@[simp] theorem chanOf_val (c : Fin 8) : chanOf (c.val : Int) = some c := by
  have h : (0 : Int) ≤ (c.val : Int) ∧ (c.val : Int) < 8 := by omega
  simp [chanOf, h]

/-- An index outside `0 .. 7` reaches no record (R34). -/
theorem chanOf_invalid {ch : Int} (h : ch < 0 ∨ 8 ≤ ch) : chanOf ch = none := by
  have : ¬ (0 ≤ ch ∧ ch < 8) := by omega
  simp [chanOf, this]

/-- The record reached has the index's number. -/
theorem chanOf_some {ch : Int} {c : Fin 8} (h : chanOf ch = some c) : ch = (c.val : Int) := by
  unfold chanOf at h
  split at h
  · simp only [Option.some.injEq] at h
    subst h
    simp only
    omega
  · cases h

/-- An index reaches a record exactly when it is in `0 .. 7`. -/
theorem chanOf_isSome {ch : Int} : (chanOf ch).isSome = true ↔ 0 ≤ ch ∧ ch < 8 := by
  unfold chanOf
  split <;> simp_all

/-- The low half of a key is the sample (R56). -/
theorem keyOf_low (h : BitVec 4) (v : BitVec 2) : (keyOf h v).extractLsb' 0 2 = v := by
  revert h v; decide

/-- The high half of a key is the low half of the history (R56). -/
theorem keyOf_high (h : BitVec 4) (v : BitVec 2) : (keyOf h v).extractLsb' 2 2 = h.extractLsb' 0 2 := by
  revert h v; decide

/-- A key as a number: R56's second form. -/
theorem keyOf_toNat (h : BitVec 4) (v : BitVec 2) : (keyOf h v).toNat = (h.toNat * 4 + v.toNat) % 16 := by
  revert h v; decide

/-- A sample as a number (R58). -/
theorem sampleOf_toNat (w : BitVec 16) (c : Fin 8) : (sampleOf w c).toNat = w.toNat / 4 ^ c.val % 4 := by
  rw [sampleOf, BitVec.extractLsb'_toNat, Nat.shiftRight_eq_div_pow, Nat.pow_mul]

/-- `DELTA` is the list of R71. -/
theorem delta_eq_list (k : BitVec 4) : delta Config.skipDelta k =
    [0, 1, -1, 0, -1, 0, 0, 1, 1, 0, 0, -1, 0, -1, 1, 0].getD k.toNat 0 := by
  revert k; decide

/-! ### The one-bit conditions -/

/-- The start condition, taken apart (R139). -/
theorem State.startable_iff {s : State} :
    s.startable = true ↔ s.dphase = .idle ∧ s.irqPending = true ∧ s.lineArmed = true ∧ s.gie = true := by
  simp only [State.startable, Bool.and_eq_true, decide_eq_true_eq, and_assoc]

/-- `cmd_ready`, taken apart (R148). -/
theorem State.cmdReady_iff {s : State} :
    s.cmdReady = true ↔ s.dphase = .idle ∧ (s.irqPending = false ∨ s.lineArmed = false) := by
  simp [State.cmdReady]

/-- A falling edge, taken apart (R23). -/
theorem State.fallingEdge_iff {s : State} {b : Bool} : s.fallingEdge b = true ↔ s.intNQ = true ∧ b = false := by
  simp [State.fallingEdge]

/-! ### The transition step -/

@[simp] theorem State.transition_lineArmed (s : State) (k : BitVec 4) (d : Int) :
    (s.transition k d).lineArmed = s.lineArmed := rfl
@[simp] theorem State.transition_gie (s : State) (k : BitVec 4) (d : Int) : (s.transition k d).gie = s.gie := rfl
@[simp] theorem State.transition_irqPending (s : State) (k : BitVec 4) (d : Int) :
    (s.transition k d).irqPending = s.irqPending := rfl
@[simp] theorem State.transition_dphase (s : State) (k : BitVec 4) (d : Int) : (s.transition k d).dphase = s.dphase := rfl
@[simp] theorem State.transition_trigPin (s : State) (k : BitVec 4) (d : Int) :
    (s.transition k d).trigPin = s.trigPin := rfl
@[simp] theorem State.transition_snap (s : State) (k : BitVec 4) (d : Int) : (s.transition k d).snap = s.snap := rfl
@[simp] theorem State.transition_intNQ (s : State) (k : BitVec 4) (d : Int) : (s.transition k d).intNQ = s.intNQ := rfl
@[simp] theorem State.transition_rsp (s : State) (k : BitVec 4) (d : Int) : (s.transition k d).rsp = s.rsp := rfl
@[simp] theorem State.transition_nowMs (s : State) (k : BitVec 4) (d : Int) : (s.transition k d).nowMs = s.nowMs := rfl
@[simp] theorem State.transition_env (s : State) (k : BitVec 4) (d : Int) : (s.transition k d).env = s.env := rfl
@[simp] theorem State.transition_freeCount (s : State) (k : BitVec 4) (d : Int) :
    (s.transition k d).freeCount = s.freeCount := rfl

/-- The record a transition step writes (R70, R80). -/
theorem State.transition_record (s : State) (k : BitVec 4) (d : Int) :
    (s.transition k d).chan[s.trigChannel] = { s.chan[s.trigChannel] with
      history := k, tickDelta := wrapS32 (sval s.chan[s.trigChannel].tickDelta + d) } := by
  simp [State.transition]

/-- The records a transition step leaves (R17). -/
theorem State.transition_other (s : State) (k : BitVec 4) (d : Int) (c : Fin 8) (h : c ≠ s.trigChannel) :
    (s.transition k d).chan[c] = s.chan[c] := by
  have : s.trigChannel.val ≠ c.val := fun e => h (Fin.ext e.symm)
  simp [State.transition, this]

/-- Any record after a transition step. -/
theorem State.transition_chan (s : State) (k : BitVec 4) (d : Int) (c : Fin 8) :
    (s.transition k d).chan[c] = if c = s.trigChannel then
      { s.chan[c] with history := k, tickDelta := wrapS32 (sval s.chan[c].tickDelta + d) } else s.chan[c] := by
  split
  · next h => subst h; exact s.transition_record k d
  · next h => exact s.transition_other k d c h

/-! ### The interrupt operation -/

/-- The state in which the update of `service` runs: entered, both answers in. -/
theorem State.service_eq (s : State) (p : BitVec 4) (w : BitVec 16) :
    s.service p w = ((((s.entry).qpin p).qport w).transition
      (keyOf s.chan[pinChannel p].history (sampleOf w (pinChannel p)))
      (delta Config.skipDelta (keyOf s.chan[pinChannel p].history (sampleOf w (pinChannel p))))).irqReturn := rfl

/-- Any record after the whole interrupt operation (R95). -/
theorem State.service_chan (s : State) (p : BitVec 4) (w : BitVec 16) (c : Fin 8) :
    (s.service p w).chan[c] = if c = pinChannel p then
      { s.chan[c] with
        history := keyOf s.chan[c].history (sampleOf w c)
        tickDelta :=
          wrapS32 (sval s.chan[c].tickDelta + delta Config.skipDelta (keyOf s.chan[c].history (sampleOf w c))) }
      else s.chan[c] := by
  rw [State.service_eq, State.irqReturn_chan, State.transition_chan]
  have : ((s.entry.qpin p).qport w).trigChannel = pinChannel p := rfl
  rw [this]
  split
  · next h => subst h; rfl
  · rfl

/-! ### READ -/

@[simp] theorem State.drain_lineArmed (s : State) (v : Nat) (c : Fin 8) : (s.drain v c).lineArmed = s.lineArmed := rfl
@[simp] theorem State.drain_gie (s : State) (v : Nat) (c : Fin 8) : (s.drain v c).gie = s.gie := rfl
@[simp] theorem State.drain_irqPending (s : State) (v : Nat) (c : Fin 8) : (s.drain v c).irqPending = s.irqPending := rfl
@[simp] theorem State.drain_dphase (s : State) (v : Nat) (c : Fin 8) : (s.drain v c).dphase = s.dphase := rfl
@[simp] theorem State.drain_trigPin (s : State) (v : Nat) (c : Fin 8) : (s.drain v c).trigPin = s.trigPin := rfl
@[simp] theorem State.drain_snap (s : State) (v : Nat) (c : Fin 8) : (s.drain v c).snap = s.snap := rfl
@[simp] theorem State.drain_intNQ (s : State) (v : Nat) (c : Fin 8) : (s.drain v c).intNQ = s.intNQ := rfl
@[simp] theorem State.drain_nowMs (s : State) (v : Nat) (c : Fin 8) : (s.drain v c).nowMs = s.nowMs := rfl
@[simp] theorem State.drain_env (s : State) (v : Nat) (c : Fin 8) : (s.drain v c).env = s.env := rfl
@[simp] theorem State.drain_freeCount (s : State) (v : Nat) (c : Fin 8) : (s.drain v c).freeCount = s.freeCount + 1 := rfl
@[simp] theorem State.drain_rsp (s : State) (v : Nat) (c : Fin 8) :
    (s.drain v c).rsp = some (readPosition v s.chan[c] s.nowMs (Config.freePosition s.freeCount)) := rfl
@[simp] theorem State.drain_chan (s : State) (v : Nat) (c : Fin 8) :
    (s.drain v c).chan = s.chan.set c (drainRecord v s.chan[c] s.nowMs (Config.freePosition s.freeCount)) := rfl

/-- The position a slow READ leaves (R106). -/
theorem readPosition_slow {v : Nat} {r : Channel} {now free : Word32}
    (h : fast v (sval r.tickDelta) (elapsed now r.lastReadTime) = false) :
    readPosition v r now free = wrapS32 (sval r.position + sval r.tickDelta) := by
  simp [readPosition, h]

/-- The position a fast READ leaves (R106, R112). -/
theorem readPosition_fast {v : Nat} {r : Channel} {now free : Word32}
    (h : fast v (sval r.tickDelta) (elapsed now r.lastReadTime) = true) :
    readPosition v r now free =
      ((scale (sval r.tickDelta) r.accel).map fun add => wrapS32 (sval r.position + add)).getD free := by
  simp only [readPosition, h, if_true]
  cases scale (sval r.tickDelta) r.accel <;> rfl

/-- `FAST`, taken apart (R109). -/
theorem fast_iff {v : Nat} {d : Int} {e : Nat} : fast v d e = true ↔ e ≠ 0 ∧ v * e < d.natAbs := by
  rw [fast, Bool.and_eq_true, decide_eq_true_eq, decide_eq_true_eq]

/-- This hardware's threshold (R7). -/
theorem velThreshold_eq : Config.velThreshold = 11 := rfl

/-- Nothing is fast with no ticks (R109). -/
@[simp] theorem fast_zero (v e : Nat) : fast v 0 e = false := by simp [fast]

/-- Nothing is fast in no time (R113). -/
@[simp] theorem fast_elapsed_zero (v : Nat) (d : Int) : fast v d 0 = false := by simp [fast]

/-- READ of a valid channel is the drain (R106, R108). -/
theorem State.read_some {v : Nat} {neutral : Word32} {ch : Int} {c : Fin 8} {s : State} (h : chanOf ch = some c) :
    s.read v neutral ch = (s.suppressAll.drain v c).restoreAll := by
  simp only [State.read, h]

/-- READ of an invalid channel is its response alone (R114). -/
theorem State.read_none {v : Nat} {neutral : Word32} {ch : Int} {s : State} (h : chanOf ch = none) :
    s.read v neutral ch = s.respond neutral := by
  simp only [State.read, h]

/-! ### What an operation can do -/

@[simp] theorem andThen_next (s : State) (f : State → State) :
    andThen (.next s) f = .next (f s) := rfl

/-- The operation a key decodes to is the transition step with that key and its delta (R57, R71). -/
theorem exec_decodeKey (k : BitVec 4) (s : State) : exec (decodeKey k) s = .next (s.transition k (delta Config.skipDelta k)) := by
  obtain ⟨k, hk⟩ := k
  interval_cases k <;> rfl

/-- Everything an operation that answers a next state can have done. -/
theorem exec_inv {i : Instr} {s t : State} (h : exec i s = .next t) :
    (∃ ch data, i = .init ch data ∧
      t = ((s.freshChannels s.nowMs).clearPending.attach.restoreAll).respond 0#32) ∨
    (∃ ch data c, i = .read ch data ∧ chanOf ch = some c ∧
      t = (s.suppressAll.drain Config.velThreshold c).restoreAll) ∨
    (∃ ch v c, i = .write ch v ∧ chanOf ch = some c ∧
      t = (s.setChan c { s.chan[c] with position := v }).respond 0#32) ∨
    (∃ ch f c, i = .setacc ch f ∧ chanOf ch = some c ∧
      t = (s.setChan c { s.chan[c] with accel := f }).respond 0#32) ∨
    (i.format = .cmd ∧ t = s.respond 0#32) ∨
    (∃ p w, i = .irq p w ∧ s.latchFall.startable = true ∧ t = s.latchFall.service p w) ∨
    (∃ p w, i = .irq p w ∧ s.latchFall.startable = false ∧ t = s.latchFall) ∨
    (∃ k, i = decodeKey k ∧ t = s.transition k (delta Config.skipDelta k)) := by
  have key : ∀ k : BitVec 4, i = decodeKey k → ∃ k, i = decodeKey k ∧ t = s.transition k (delta Config.skipDelta k) := by
    rintro k rfl
    rw [exec_decodeKey] at h
    exact ⟨k, rfl, by cases h; rfl⟩
  cases i with
  | init ch data => cases h; exact .inl ⟨_, _, rfl, rfl⟩
  | read ch data =>
    cases h
    cases hc : chanOf ch with
    | some c => exact .inr (.inl ⟨_, _, c, rfl, hc, State.read_some hc⟩)
    | none => exact .inr (.inr (.inr (.inr (.inl ⟨rfl, State.read_none hc⟩))))
  | write ch v =>
    simp only [exec, execWrite] at h
    split at h <;> cases h
    · next c hc => exact .inr (.inr (.inl ⟨_, _, c, rfl, hc, rfl⟩))
    · exact .inr (.inr (.inr (.inr (.inl ⟨rfl, rfl⟩))))
  | setacc ch f =>
    simp only [exec, execSetacc] at h
    split at h <;> cases h
    · next c hc => exact .inr (.inr (.inr (.inl ⟨_, _, c, rfl, hc, rfl⟩)))
    · exact .inr (.inr (.inr (.inr (.inl ⟨rfl, rfl⟩))))
  | irq p w =>
    simp only [exec, execIrq] at h
    split at h <;> cases h
    · next hs => exact .inr (.inr (.inr (.inr (.inr (.inl ⟨p, w, rfl, hs, rfl⟩)))))
    · next hs => exact .inr (.inr (.inr (.inr (.inr (.inr (.inl ⟨p, w, rfl, by simpa using hs, rfl⟩))))))
  | rsvd4 | rsvd5 | rsvd6 | rsvd7 | rsvd8 | rsvd9 | rsvd10 | rsvd11 | rsvd12 | rsvd13 | rsvd14 | rsvd15 =>
    cases h; exact .inr (.inr (.inr (.inr (.inl ⟨rfl, rfl⟩))))
  | tk0 => exact .inr (.inr (.inr (.inr (.inr (.inr (.inr (key 0#4 rfl)))))))
  | tk1 => exact .inr (.inr (.inr (.inr (.inr (.inr (.inr (key 1#4 rfl)))))))
  | tk2 => exact .inr (.inr (.inr (.inr (.inr (.inr (.inr (key 2#4 rfl)))))))
  | tk3 => exact .inr (.inr (.inr (.inr (.inr (.inr (.inr (key 3#4 rfl)))))))
  | tk4 => exact .inr (.inr (.inr (.inr (.inr (.inr (.inr (key 4#4 rfl)))))))
  | tk5 => exact .inr (.inr (.inr (.inr (.inr (.inr (.inr (key 5#4 rfl)))))))
  | tk6 => exact .inr (.inr (.inr (.inr (.inr (.inr (.inr (key 6#4 rfl)))))))
  | tk7 => exact .inr (.inr (.inr (.inr (.inr (.inr (.inr (key 7#4 rfl)))))))
  | tk8 => exact .inr (.inr (.inr (.inr (.inr (.inr (.inr (key 8#4 rfl)))))))
  | tk9 => exact .inr (.inr (.inr (.inr (.inr (.inr (.inr (key 9#4 rfl)))))))
  | tk10 => exact .inr (.inr (.inr (.inr (.inr (.inr (.inr (key 10#4 rfl)))))))
  | tk11 => exact .inr (.inr (.inr (.inr (.inr (.inr (.inr (key 11#4 rfl)))))))
  | tk12 => exact .inr (.inr (.inr (.inr (.inr (.inr (.inr (key 12#4 rfl)))))))
  | tk13 => exact .inr (.inr (.inr (.inr (.inr (.inr (.inr (key 13#4 rfl)))))))
  | tk14 => exact .inr (.inr (.inr (.inr (.inr (.inr (.inr (key 14#4 rfl)))))))
  | tk15 => exact .inr (.inr (.inr (.inr (.inr (.inr (.inr (key 15#4 rfl)))))))

/-- No operation touches the inputs held in the state. -/
theorem exec_sameInputs {i : Instr} {s t : State} (h : exec i s = .next t) : t.nowMs = s.nowMs ∧ t.env = s.env := by
  obtain ⟨_, _, _, rfl⟩ | ⟨_, _, _, _, _, rfl⟩ | ⟨_, _, _, _, _, rfl⟩ | ⟨_, _, _, _, _, rfl⟩ | ⟨_, rfl⟩ |
    ⟨_, _, _, _, rfl⟩ | ⟨_, _, _, _, rfl⟩ | ⟨_, _, rfl⟩ := exec_inv h <;> exact ⟨rfl, rfl⟩

end Sys2Proof.Machine
end

