-- ==== Sys2Proof/Laws/PerInstr.lean ====
section
/-!
SUPPORT. Per-instruction laws over the syntax: each row's encoding carries the fixed bits the opcode table gives it.
-/

namespace Sys2Proof.Laws.TableMatch

/-- A row's fixed bits (`mask`, `match` of spec/opcode_table.json) stand in its encoding, which has the row's format. -/
def Statement (i : Instr) : Prop :=
  (encode i).bits &&& i.tableMask = i.tableMatch ∧ (encode i).format = i.format

/-- The `op` field is all a command word's mask keeps. -/
theorem cmd_masked (op : BitVec 4) (ch : Int) (data : Word32) :
    (encodeCmd op ch data).toNat &&& 0xF0000000000 = (op ++ 0#40 : BitVec 44).toNat := by
  have h : encodeCmd op ch data &&& (0xF#4 ++ 0#8 ++ 0#32 : BitVec 44) = (op ++ 0#8 ++ 0#32 : BitVec 44) := by
    rw [encodeCmd]
    erw [BitVec.and_append, BitVec.and_append]
    simp [show op &&& 0xF#4 = op from by revert op; decide]
  have h2 : (op ++ 0#8 ++ 0#32 : BitVec 44) = (op ++ 0#40 : BitVec 44) := by clear h; revert op; decide
  have := congrArg BitVec.toNat (h.trans h2)
  simpa [BitVec.toNat_and] using this

theorem init (ch : Int) (data : Word32) : Statement (.init ch data) := ⟨cmd_masked _ ch data, rfl⟩

theorem read (ch : Int) (data : Word32) : Statement (.read ch data) := ⟨cmd_masked _ ch data, rfl⟩

theorem write (ch : Int) (data : Word32) : Statement (.write ch data) := ⟨cmd_masked _ ch data, rfl⟩

theorem setacc (ch : Int) (data : Word32) : Statement (.setacc ch data) := ⟨cmd_masked _ ch data, rfl⟩

theorem rsvd4 (ch : Int) (data : Word32) : Statement (.rsvd4 ch data) := ⟨cmd_masked _ ch data, rfl⟩

theorem rsvd5 (ch : Int) (data : Word32) : Statement (.rsvd5 ch data) := ⟨cmd_masked _ ch data, rfl⟩

theorem rsvd6 (ch : Int) (data : Word32) : Statement (.rsvd6 ch data) := ⟨cmd_masked _ ch data, rfl⟩

theorem rsvd7 (ch : Int) (data : Word32) : Statement (.rsvd7 ch data) := ⟨cmd_masked _ ch data, rfl⟩

theorem rsvd8 (ch : Int) (data : Word32) : Statement (.rsvd8 ch data) := ⟨cmd_masked _ ch data, rfl⟩

theorem rsvd9 (ch : Int) (data : Word32) : Statement (.rsvd9 ch data) := ⟨cmd_masked _ ch data, rfl⟩

theorem rsvd10 (ch : Int) (data : Word32) : Statement (.rsvd10 ch data) := ⟨cmd_masked _ ch data, rfl⟩

theorem rsvd11 (ch : Int) (data : Word32) : Statement (.rsvd11 ch data) := ⟨cmd_masked _ ch data, rfl⟩

theorem rsvd12 (ch : Int) (data : Word32) : Statement (.rsvd12 ch data) := ⟨cmd_masked _ ch data, rfl⟩

theorem rsvd13 (ch : Int) (data : Word32) : Statement (.rsvd13 ch data) := ⟨cmd_masked _ ch data, rfl⟩

theorem rsvd14 (ch : Int) (data : Word32) : Statement (.rsvd14 ch data) := ⟨cmd_masked _ ch data, rfl⟩

theorem rsvd15 (ch : Int) (data : Word32) : Statement (.rsvd15 ch data) := ⟨cmd_masked _ ch data, rfl⟩

theorem irq (trigPin : BitVec 4) (snap : BitVec 16) : Statement (.irq trigPin snap) := ⟨Nat.and_zero _, rfl⟩

theorem tk0 : Statement .tk0 := ⟨rfl, rfl⟩

theorem tk1 : Statement .tk1 := ⟨rfl, rfl⟩

theorem tk2 : Statement .tk2 := ⟨rfl, rfl⟩

theorem tk3 : Statement .tk3 := ⟨rfl, rfl⟩

theorem tk4 : Statement .tk4 := ⟨rfl, rfl⟩

theorem tk5 : Statement .tk5 := ⟨rfl, rfl⟩

theorem tk6 : Statement .tk6 := ⟨rfl, rfl⟩

theorem tk7 : Statement .tk7 := ⟨rfl, rfl⟩

theorem tk8 : Statement .tk8 := ⟨rfl, rfl⟩

theorem tk9 : Statement .tk9 := ⟨rfl, rfl⟩

theorem tk10 : Statement .tk10 := ⟨rfl, rfl⟩

theorem tk11 : Statement .tk11 := ⟨rfl, rfl⟩

theorem tk12 : Statement .tk12 := ⟨rfl, rfl⟩

theorem tk13 : Statement .tk13 := ⟨rfl, rfl⟩

theorem tk14 : Statement .tk14 := ⟨rfl, rfl⟩

theorem tk15 : Statement .tk15 := ⟨rfl, rfl⟩

end Sys2Proof.Laws.TableMatch
end

