-- ==== Sys2Proof/Laws/Step.lean ====
section
/-!
SUPPORT. What one step can do: which operation a rising edge of `clk` performs, and that an operation put before the
block is the one the next step runs.
-/

namespace Sys2Proof.Machine

/-! ### Which input a step takes -/

theorem step_edge {s : State} {p : Ports} {rest : List Input} (h : s.env = .edge p :: rest) :
    step s = clkEdge p { s with env := rest } := by
  simp [step, takeNext, h, takeInput]

theorem step_reset {s : State} {t : Word32} {rest : List Input} (h : s.env = .reset t :: rest) :
    step s = .next ({ s with env := rest }.hardwareReset t) := by
  simp [step, takeNext, h, takeInput]

theorem step_irqOp {s : State} {w : BitVec 20} {rest : List Input} (h : s.env = .irqOp w :: rest) :
    step s = exec (decodeIrqOp w) { s with env := rest, rsp := none } := by
  simp [step, takeNext, h, takeInput]

/-- `step_edge` on a state whose inputs are written out. -/
theorem step_with_edge (s : State) (p : Ports) (rest : List Input) :
    step { s with env := .edge p :: rest } = clkEdge p { s with env := rest } := rfl

/-- `step_reset` on a state whose inputs are written out. -/
theorem step_with_reset (s : State) (t : Word32) (rest : List Input) :
    step { s with env := .reset t :: rest } = .next ({ s with env := rest }.hardwareReset t) := rfl

theorem step_quiet {s : State} (h : s.env = []) : step s = clkEdge s.quietPorts s := by
  simp [step, takeNext, h]

/-! ### What an edge does -/

/-- Nothing is enabled: the inputs are sampled and a falling edge is latched. -/
def State.waits (p : Ports) (s : State) : State :=
  (s.sample p.intN p.nowMs).latchIf (s.fallingEdge p.intN)

@[simp] theorem State.waits_chan (s : State) (p : Ports) : (s.waits p).chan = s.chan := by
  simp [State.waits]

@[simp] theorem State.waits_lineArmed (s : State) (p : Ports) : (s.waits p).lineArmed = s.lineArmed := by
  simp [State.waits]

@[simp] theorem State.waits_gie (s : State) (p : Ports) : (s.waits p).gie = s.gie := by
  simp [State.waits]

@[simp] theorem State.waits_irqPending (s : State) (p : Ports) : (s.waits p).irqPending = (s.fallingEdge p.intN || s.irqPending) := by
  simp [State.waits]

@[simp] theorem State.waits_dphase (s : State) (p : Ports) : (s.waits p).dphase = s.dphase := by
  simp [State.waits]

@[simp] theorem State.waits_trigPin (s : State) (p : Ports) : (s.waits p).trigPin = s.trigPin := by
  simp [State.waits]

@[simp] theorem State.waits_snap (s : State) (p : Ports) : (s.waits p).snap = s.snap := by
  simp [State.waits]

@[simp] theorem State.waits_intNQ (s : State) (p : Ports) : (s.waits p).intNQ = p.intN := by
  simp [State.waits]

@[simp] theorem State.waits_rsp (s : State) (p : Ports) : (s.waits p).rsp = none := by
  simp [State.waits]

@[simp] theorem State.waits_nowMs (s : State) (p : Ports) : (s.waits p).nowMs = p.nowMs := by
  simp [State.waits]

@[simp] theorem State.waits_env (s : State) (p : Ports) : (s.waits p).env = s.env := by
  simp [State.waits]

@[simp] theorem State.waits_freeCount (s : State) (p : Ports) : (s.waits p).freeCount = s.freeCount := by
  simp [State.waits]

/-- The start condition holds and the block takes its step: ENTRY (R139, R140). -/
theorem clkEdge_entry {p : Ports} {s : State} (h : s.startable = true) (ha : p.advance = true) :
    clkEdge p s = .next ((s.sample p.intN p.nowMs).entry.latchIf (s.fallingEdge p.intN)) := by
  have hs : s.dphase = .idle := by simp [State.startable] at h; exact h.1.1.1
  have h0 : (s.sample p.intN p.nowMs).startable = true := h
  simp [clkEdge, hs, h0, ha]

/-- An accepted command (R148, R149). -/
theorem clkEdge_command {p : Ports} {s : State} (hv : p.cmdValid = true) (hr : s.cmdReady = true) :
    clkEdge p s = andThen (exec (decodeCmd p.cmdWord) (s.sample p.intN p.nowMs))
      (State.latchIf (s.fallingEdge p.intN)) := by
  have hs : s.dphase = .idle := by simp [State.cmdReady] at hr; exact hr.1
  have hn : (s.sample p.intN p.nowMs).startable = false := by
    simp [State.cmdReady] at hr
    simp only [State.startable, State.sample_dphase, State.sample_irqPending, State.sample_lineArmed, State.sample_gie]
    rcases hr.2 with h | h <;> simp [h]
  have h0 : (s.sample p.intN p.nowMs).cmdReady = true := hr
  simp [clkEdge, hs, hn, hv, h0]

/-- Idle, and neither the start condition nor an acceptable command. -/
theorem clkEdge_idle_waits {p : Ports} {s : State} (hs : s.dphase = .idle) (h : s.startable = false)
    (hc : ¬ (p.cmdValid = true ∧ s.cmdReady = true)) : clkEdge p s = .next (s.waits p) := by
  have h0 : (s.sample p.intN p.nowMs).startable = false := h
  have h1 : (p.cmdValid && (s.sample p.intN p.nowMs).cmdReady) = false := by
    change (p.cmdValid && s.cmdReady) = false
    simpa using hc
  simp [clkEdge, hs, h0, h1, State.waits]

/-- The start condition holds and the block does not take its step yet. -/
theorem clkEdge_startable_waits {p : Ports} {s : State} (h : s.startable = true) (ha : p.advance = false) :
    clkEdge p s = .next (s.waits p) := by
  have hs : s.dphase = .idle := by simp [State.startable] at h; exact h.1.1.1
  have h0 : (s.sample p.intN p.nowMs).startable = true := h
  simp [clkEdge, hs, h0, ha, State.waits]

theorem clkEdge_qpin {p : Ports} {s : State} (hs : s.dphase = .qpin) :
    clkEdge p s = .next (if p.ppAck then
      ((s.sample p.intN p.nowMs).qpin (p.ppData.extractLsb' 0 4)).latchIf (s.fallingEdge p.intN) else s.waits p) := by
  cases ha : p.ppAck <;> simp [clkEdge, hs, ha, State.waits]

theorem clkEdge_qport {p : Ports} {s : State} (hs : s.dphase = .qport) :
    clkEdge p s = .next (if p.ppAck then
      ((s.sample p.intN p.nowMs).qport p.ppData).latchIf (s.fallingEdge p.intN) else s.waits p) := by
  cases ha : p.ppAck <;> simp [clkEdge, hs, ha, State.waits]

/-- UPDATE (R93): whichever key, one form. -/
theorem clkEdge_update {p : Ports} {s : State} (hs : s.dphase = .update) :
    clkEdge p s = .next (if p.advance then (s.sample p.intN p.nowMs).update else s.waits p) := by
  cases ha : p.advance <;> simp [clkEdge, hs, ha, State.waits, exec_decodeKey, State.update]

/-- Everything an edge can do. -/
theorem clkEdge_inv {p : Ports} {s t : State} (h : clkEdge p s = .next t) :
    (s.startable = true ∧ p.advance = true ∧
      t = (s.sample p.intN p.nowMs).entry.latchIf (s.fallingEdge p.intN)) ∨
    (p.cmdValid = true ∧ s.cmdReady = true ∧ ∃ u, exec (decodeCmd p.cmdWord) (s.sample p.intN p.nowMs) = .next u ∧
      t = u.latchIf (s.fallingEdge p.intN)) ∨
    (s.dphase = .qpin ∧ p.ppAck = true ∧
      t = ((s.sample p.intN p.nowMs).qpin (p.ppData.extractLsb' 0 4)).latchIf (s.fallingEdge p.intN)) ∨
    (s.dphase = .qport ∧ p.ppAck = true ∧
      t = ((s.sample p.intN p.nowMs).qport p.ppData).latchIf (s.fallingEdge p.intN)) ∨
    (s.dphase = .update ∧ p.advance = true ∧ t = (s.sample p.intN p.nowMs).update) ∨
    (¬ (s.dphase = .update ∧ p.advance = true) ∧ ¬ (p.cmdValid = true ∧ s.cmdReady = true) ∧ t = s.waits p) := by
  cases hs : s.dphase with
  | idle =>
    by_cases hc : p.cmdValid = true ∧ s.cmdReady = true
    · rw [clkEdge_command hc.1 hc.2] at h
      cases he : exec (decodeCmd p.cmdWord) (s.sample p.intN p.nowMs) with
      | next u =>
        rw [he, andThen_next] at h
        cases h
        exact .inr (.inl ⟨hc.1, hc.2, u, rfl, rfl⟩)
      | fault r => rw [he] at h; cases h
      | refused r => rw [he] at h; cases h
    · cases hst : s.startable with
      | true =>
        cases ha : p.advance with
        | true => rw [clkEdge_entry hst ha] at h; cases h; exact .inl ⟨rfl, rfl, rfl⟩
        | false =>
          rw [clkEdge_startable_waits hst ha] at h
          cases h
          exact .inr (.inr (.inr (.inr (.inr ⟨by simp, hc, rfl⟩))))
      | false =>
        rw [clkEdge_idle_waits hs hst hc] at h
        cases h
        exact .inr (.inr (.inr (.inr (.inr ⟨by simp, hc, rfl⟩))))
  | qpin =>
    rw [clkEdge_qpin hs] at h
    cases h
    cases ha : p.ppAck with
    | true => exact .inr (.inr (.inl ⟨rfl, rfl, by simp⟩))
    | false => exact .inr (.inr (.inr (.inr (.inr ⟨by simp, by simp [State.cmdReady, hs], by simp⟩))))
  | qport =>
    rw [clkEdge_qport hs] at h
    cases h
    cases ha : p.ppAck with
    | true => exact .inr (.inr (.inr (.inl ⟨rfl, rfl, by simp⟩)))
    | false => exact .inr (.inr (.inr (.inr (.inr ⟨by simp, by simp [State.cmdReady, hs], by simp⟩))))
  | update =>
    rw [clkEdge_update hs] at h
    cases h
    cases ha : p.advance with
    | true => exact .inr (.inr (.inr (.inr (.inl ⟨rfl, rfl, by simp⟩))))
    | false => exact .inr (.inr (.inr (.inr (.inr ⟨by simp, by simp [State.cmdReady, hs], by simp⟩))))

/-! ### What a step performs -/

/-- What an edge performs depends neither on the inputs to come nor on the response held. -/
@[simp] theorem State.performsAt_env (s : State) (p : Ports) (e : List Input) :
    State.performsAt p { s with env := e } = s.performsAt p := rfl

theorem State.performs_edge {s : State} {p : Ports} {rest : List Input} (h : s.env = .edge p :: rest) :
    s.performs = s.performsAt p := by
  simp [State.performs, h]

theorem State.performs_quiet {s : State} (h : s.env = []) : s.performs = s.performsAt s.quietPorts := by
  simp [State.performs, h]

theorem State.performs_reset {s : State} {n : Word32} {rest : List Input} (h : s.env = .reset n :: rest) :
    s.performs = .reset := by
  simp [State.performs, h]

theorem State.performs_irqOp {s : State} {w : BitVec 20} {rest : List Input} (h : s.env = .irqOp w :: rest) :
    s.performs = .irqOp w := by
  simp [State.performs, h]

/-- An edge that performs no operation only samples the inputs. -/
theorem clkEdge_nothing {p : Ports} {s : State} (h : s.performsAt p = .nothing) : clkEdge p s = .next (s.waits p) := by
  cases hs : s.dphase with
  | idle =>
    simp only [State.performsAt, hs] at h
    cases hpa : (s.irqPending && s.lineArmed) with
    | false =>
      rw [hpa] at h
      have hv : p.cmdValid = false := by
        cases hv : p.cmdValid <;> simp_all
      exact clkEdge_idle_waits hs (by rw [Bool.eq_false_iff, Ne, State.startable_iff]; simp_all) (by simp [hv])
    | true =>
      have hr : s.cmdReady = false := by simp [State.cmdReady, hpa]
      cases hst : s.startable with
      | false => exact clkEdge_idle_waits hs hst (by simp [hr])
      | true =>
        have hg := State.startable_iff.1 hst
        exact clkEdge_startable_waits hst (by simp_all)
  | qpin => rw [clkEdge_qpin hs, if_neg (by simpa [State.performsAt, hs] using h)]
  | qport => rw [clkEdge_qport hs, if_neg (by simpa [State.performsAt, hs] using h)]
  | update => rw [clkEdge_update hs, if_neg (by simpa [State.performsAt, hs] using h)]

/-- Everything an edge can do, by the operation it performs. -/
theorem clkEdge_performs {p : Ports} {s t : State} (h : clkEdge p s = .next t) :
    (s.performsAt p = .nothing ∧ t = s.waits p) ∨
    (s.performsAt p = .entry ∧ s.startable = true ∧
      t = (s.sample p.intN p.nowMs).entry.latchIf (s.fallingEdge p.intN)) ∨
    (s.performsAt p = .command (decodeCmd p.cmdWord) ∧ s.cmdReady = true ∧
      ∃ u, exec (decodeCmd p.cmdWord) (s.sample p.intN p.nowMs) = .next u ∧ t = u.latchIf (s.fallingEdge p.intN)) ∨
    (s.performsAt p = .qpin ∧
      t = ((s.sample p.intN p.nowMs).qpin (p.ppData.extractLsb' 0 4)).latchIf (s.fallingEdge p.intN)) ∨
    (s.performsAt p = .qport ∧ t = ((s.sample p.intN p.nowMs).qport p.ppData).latchIf (s.fallingEdge p.intN)) ∨
    (s.performsAt p = .update ∧ t = (s.sample p.intN p.nowMs).update) := by
  by_cases hn : s.performsAt p = .nothing
  · rw [clkEdge_nothing hn] at h
    exact .inl ⟨hn, by cases h; rfl⟩
  cases hs : s.dphase with
  | idle =>
    cases hpa : (s.irqPending && s.lineArmed) with
    | true =>
      cases hg : (s.gie && p.advance) with
      | false => exact absurd (by simp [State.performsAt, hs, hpa, hg]) hn
      | true =>
        have hpa' := Bool.and_eq_true_iff.1 hpa
        have hg' := Bool.and_eq_true_iff.1 hg
        have hst := State.startable_iff.2 ⟨hs, hpa'.1, hpa'.2, hg'.1⟩
        rw [clkEdge_entry hst hg'.2] at h
        exact .inr (.inl ⟨by simp [State.performsAt, hs, hpa, hg], hst, by cases h; rfl⟩)
    | false =>
      cases hv : p.cmdValid with
      | false => exact absurd (by simp [State.performsAt, hs, hpa, hv]) hn
      | true =>
        have hr : s.cmdReady = true := by simp [State.cmdReady, hs, hpa]
        rw [clkEdge_command hv hr] at h
        refine .inr (.inr (.inl ⟨by simp [State.performsAt, hs, hpa, hv], hr, ?_⟩))
        cases he : exec (decodeCmd p.cmdWord) (s.sample p.intN p.nowMs) with
        | next u => rw [he, andThen_next] at h; exact ⟨u, rfl, by cases h; rfl⟩
        | fault r => rw [he] at h; cases h
        | refused r => rw [he] at h; cases h
  | qpin =>
    cases ha : p.ppAck with
    | false => exact absurd (by simp [State.performsAt, hs, ha]) hn
    | true =>
      rw [clkEdge_qpin hs, if_pos ha] at h
      exact .inr (.inr (.inr (.inl ⟨by simp [State.performsAt, hs, ha], by cases h; rfl⟩)))
  | qport =>
    cases ha : p.ppAck with
    | false => exact absurd (by simp [State.performsAt, hs, ha]) hn
    | true =>
      rw [clkEdge_qport hs, if_pos ha] at h
      exact .inr (.inr (.inr (.inr (.inl ⟨by simp [State.performsAt, hs, ha], by cases h; rfl⟩))))
  | update =>
    cases ha : p.advance with
    | false => exact absurd (by simp [State.performsAt, hs, ha]) hn
    | true =>
      rw [clkEdge_update hs, if_pos ha] at h
      exact .inr (.inr (.inr (.inr (.inr ⟨by simp [State.performsAt, hs, ha], by cases h; rfl⟩))))

/-- Everything a step can do, by the operation it performs. -/
theorem step_performs {s t : State} (h : step s = .next t) :
    (∃ p : Ports, s.performs = s.performsAt p ∧ clkEdge p { s with env := s.env.tail } = .next t) ∨
    (∃ n, s.performs = .reset ∧ t = { s with env := s.env.tail }.hardwareReset n) ∨
    (∃ w, s.performs = .irqOp w ∧ exec (decodeIrqOp w) { s with env := s.env.tail, rsp := none } = .next t) := by
  rcases he : s.env with _ | ⟨p | n | w, rest⟩
  · exact .inl ⟨_, State.performs_quiet he, by rw [step_quiet he] at h; rw [← h]; congr 1; cases s; simp_all⟩
  · exact .inl ⟨_, State.performs_edge he, by rw [step_edge he] at h; exact h⟩
  · refine .inr (.inl ⟨n, State.performs_reset he, ?_⟩)
    rw [step_reset he] at h; cases h; rfl
  · exact .inr (.inr ⟨_, State.performs_irqOp he, by rw [step_irqOp he] at h; exact h⟩)

/-! ### Runs -/

/-- A run of `n + 1` steps from the first of them, on any machine behind the host's interface. -/
theorem run_succ_of_step (M : Host.Core) {n : Nat} {s t : M.State} (h : M.step s = .next t) :
    Host.Core.run M (n + 1) s = Host.Core.run M n t := by
  rw [Host.Core.run, h]

/-- A run of `n + 1` steps from the first of them. -/
theorem run_next {n : Nat} {s t : State} (h : step s = .next t) :
    Host.Core.run core (n + 1) s = Host.Core.run core n t := run_succ_of_step core h

/-! ### An operation put before the block is the next to run (log entry 14) -/

/-- A presented command word is accepted at the next edge. -/
theorem step_presentCmd (s : State) (w : BitVec 44) :
    step (s.presentCmd w) = andThen (exec (decodeCmd w)
      ({ s with dphase := .idle, irqPending := s.irqPending && !s.lineArmed }.sample s.intNQ s.nowMs)) (State.latchIf false) := by
  have hr : State.cmdReady { s.presentCmd w with env := s.env } = true := by
    simp only [State.presentCmd, State.cmdReady]
    cases s.irqPending <;> cases s.lineArmed <;> rfl
  rw [step_edge (s := s.presentCmd w) rfl, clkEdge_command rfl hr]
  congr 2
  simp [State.fallingEdge, State.presentCmd, State.quietPorts]

/-- A presented interrupt operation runs whole. -/
theorem step_presentIrqOp (s : State) (w : BitVec 20) :
    step (s.presentIrqOp w) = exec (decodeIrqOp w)
      { s with dphase := .idle, lineArmed := true, gie := true, rsp := none } := by
  rw [step_irqOp (s := s.presentIrqOp w) rfl]
  rfl

/-- The snapshot made for a key reads that pair. -/
theorem sampleOf_snapWithPair (w : BitVec 16) (c : Fin 8) (v : BitVec 2) : sampleOf (snapWithPair w c v) c = v := by
  obtain ⟨c, hc⟩ := c
  refine BitVec.eq_of_getLsbD_eq fun i hi => ?_
  simp only [sampleOf, snapWithPair, BitVec.getLsbD_extractLsb', BitVec.getLsbD_or, BitVec.getLsbD_and, BitVec.getLsbD_not,
    BitVec.getLsbD_shiftLeft, BitVec.getLsbD_setWidth, BitVec.truncate_eq_setWidth]
  interval_cases i <;> interval_cases c <;> simp

/-- The key formed from a presented key is that key. -/
theorem trigKey_presentKey (s : State) (k : BitVec 4) : (s.presentKey k).trigKey = k := by
  have key : ∀ (h : BitVec 4) (k : BitVec 4),
      keyOf (h.extractLsb' 2 2 ++ k.extractLsb' 2 2) (k.extractLsb' 0 2) = k := by decide
  change keyOf (s.presentKey k).chan[s.trigChannel].history
    (sampleOf (snapWithPair s.snap s.trigChannel (k.extractLsb' 0 2)) s.trigChannel) = k
  rw [sampleOf_snapWithPair]
  simp only [State.presentKey, Fin.getElem_fin, State.setChan_chan, Vector.getElem_set_self]
  exact key _ _

/-- A presented key runs, and steps 7 and 8 after it. -/
theorem step_presentKey (s : State) (k : BitVec 4) :
    step (s.presentKey k) = andThen (exec (decodeKey k)
      ({ s.presentKey k with env := s.env }.sample s.intNQ s.nowMs)) State.irqReturn := by
  rw [step_edge (s := s.presentKey k) rfl, exec_decodeKey]
  have hk : ({ s.presentKey k with env := s.env }.sample s.intNQ s.nowMs).trigKey = k := trigKey_presentKey s k
  rw [clkEdge_update rfl]
  simp only [State.quietPorts, if_true, State.update, andThen_next]
  rw [hk]

end Sys2Proof.Machine
end

