-- ==== Sys2Proof/Tests/Slice0.lean ====
section
/-!
SUPPORT. The model's own tests: the WellFormed smoke test, decoding of words written out bit by bit from the spec's
encodings, vectors of spec/95_test_vectors.md on single operations or steps, and a witness for the hypotheses of every
statement that has some.
-/

namespace Sys2Proof.Tests

open Sys2Proof Sys2Proof.Machine

/-! ### Helpers -/

/-- The next state of an outcome, if it is one. -/
def nextOf (o : Host.Outcome State Fault Refusal) : Option State :=
  match o with
  | .next t => some t
  | .fault _ => none
  | .refused _ => none

/-- An initialised block: idle, armed, all records fresh at time 1000. -/
def armed : State := { State.resetAt 1000#32 with lineArmed := true }

/-- An initialised block in which channel `c` has the record `r`, at time `now`. -/
def withRecord (c : Fin 8) (r : Channel) (now : Word32) : State := { armed.setChan c r with nowMs := now }

/-- A record with history 5. -/
def record (td lrt pos accel : Word32) : Channel :=
  { tickDelta := td, history := 5#4, lastReadTime := lrt, position := pos, accel := accel }

/-- The record of channel `c` in an outcome's next state. -/
def recordOf (c : Fin 8) (o : Host.Outcome State Fault Refusal) : Option Channel := (nextOf o).map (fun t => t.chan[c])

/-- The response in an outcome's next state. -/
def rspOf (o : Host.Outcome State Fault Refusal) : Option Word32 := (nextOf o).bind (fun t => t.rsp)

/-- Levels of an edge: only `int_n` given, the rest quiet. -/
def lineAt (b : Bool) (s : State) : Ports := { s.quietPorts with intN := b }

/-- An edge at which the command word `w` is offered to `armed`, nothing else changing. -/
def offer (w : BitVec 44) : Ports := { armed.quietPorts with cmdValid := true, cmdWord := w }

/-! ### WellFormed: the one check refuses an index that its field cannot hold, at both ends (R52) -/

theorem test_wf_refuses_above :
    [Instr.init 128 0#32, Instr.read 128 0#32, Instr.write 128 0#32, Instr.setacc 128 0#32, Instr.rsvd4 128 0#32, Instr.rsvd5 128 0#32, Instr.rsvd6 128 0#32, Instr.rsvd7 128 0#32,
     Instr.rsvd8 128 0#32, Instr.rsvd9 128 0#32, Instr.rsvd10 128 0#32, Instr.rsvd11 128 0#32, Instr.rsvd12 128 0#32, Instr.rsvd13 128 0#32, Instr.rsvd14 128 0#32, Instr.rsvd15 128 0#32].all
      (fun i => !i.wellFormed) = true := by decide

theorem test_wf_refuses_below :
    [Instr.init (-129) 0#32, Instr.read (-129) 0#32, Instr.write (-129) 0#32, Instr.setacc (-129) 0#32, Instr.rsvd4 (-129) 0#32, Instr.rsvd5 (-129) 0#32, Instr.rsvd6 (-129) 0#32, Instr.rsvd7 (-129) 0#32,
     Instr.rsvd8 (-129) 0#32, Instr.rsvd9 (-129) 0#32, Instr.rsvd10 (-129) 0#32, Instr.rsvd11 (-129) 0#32, Instr.rsvd12 (-129) 0#32, Instr.rsvd13 (-129) 0#32, Instr.rsvd14 (-129) 0#32, Instr.rsvd15 (-129) 0#32].all
      (fun i => !i.wellFormed) = true := by decide

theorem test_wf_admits_ends : (Instr.read 127 0#32).wellFormed = true ∧ (Instr.read (-128) 0#32).wellFormed = true := by
  decide

/-! ### Decoding: one word for each constructor, bit by bit from R50, R51, R57, R60 (vectors V8, V3, V1) -/

theorem test_decode_init :
    decodeCmd 0b00001010101100010010001101000101011001111000#44 = .init (-85) 0x12345678#32 := by
  decide

theorem test_decode_read :
    decodeCmd 0b00010000001100010010001101001010101111001101#44 = .read (3) 0x1234ABCD#32 := by
  decide

theorem test_decode_write :
    decodeCmd 0b00100000011111111111111111111111111111111111#44 = .write (7) 0xFFFFFFFF#32 := by
  decide

theorem test_decode_setacc :
    decodeCmd 0b00110000001000111111110000000000000000000000#44 = .setacc (2) 0x3FC00000#32 := by
  decide

theorem test_decode_rsvd4 :
    decodeCmd 0b01000000001100000000000000000000000000000001#44 = .rsvd4 (3) 0x00000001#32 := by
  decide

theorem test_decode_rsvd5 :
    decodeCmd 0b01010000001100010010001101001010101111001101#44 = .rsvd5 (3) 0x1234ABCD#32 := by
  decide

theorem test_decode_rsvd6 :
    decodeCmd 0b01100000001100000000000000000000000000000001#44 = .rsvd6 (3) 0x00000001#32 := by
  decide

theorem test_decode_rsvd7 :
    decodeCmd 0b01110000001100010010001101001010101111001101#44 = .rsvd7 (3) 0x1234ABCD#32 := by
  decide

theorem test_decode_rsvd8 :
    decodeCmd 0b10000000001100000000000000000000000000000001#44 = .rsvd8 (3) 0x00000001#32 := by
  decide

theorem test_decode_rsvd9 :
    decodeCmd 0b10010000001100010010001101001010101111001101#44 = .rsvd9 (3) 0x1234ABCD#32 := by
  decide

theorem test_decode_rsvd10 :
    decodeCmd 0b10100000001100000000000000000000000000000001#44 = .rsvd10 (3) 0x00000001#32 := by
  decide

theorem test_decode_rsvd11 :
    decodeCmd 0b10110000001100010010001101001010101111001101#44 = .rsvd11 (3) 0x1234ABCD#32 := by
  decide

theorem test_decode_rsvd12 :
    decodeCmd 0b11000000001100000000000000000000000000000001#44 = .rsvd12 (3) 0x00000001#32 := by
  decide

theorem test_decode_rsvd13 :
    decodeCmd 0b11010000001100010010001101001010101111001101#44 = .rsvd13 (3) 0x1234ABCD#32 := by
  decide

theorem test_decode_rsvd14 :
    decodeCmd 0b11100000001100000000000000000000000000000001#44 = .rsvd14 (3) 0x00000001#32 := by
  decide

theorem test_decode_rsvd15 :
    decodeCmd 0b11111000000000010010001101001010101111001101#44 = .rsvd15 (-128) 0x1234ABCD#32 := by
  decide

theorem test_decode_irq : decodeIrqOp 0b01111110010000011011#20 = .irq 7#4 0xE41B#16 := by decide

theorem test_decode_tk0 : decodeKey 0b0000#4 = .tk0 := by decide

theorem test_decode_tk1 : decodeKey 0b0001#4 = .tk1 := by decide

theorem test_decode_tk2 : decodeKey 0b0010#4 = .tk2 := by decide

theorem test_decode_tk3 : decodeKey 0b0011#4 = .tk3 := by decide

theorem test_decode_tk4 : decodeKey 0b0100#4 = .tk4 := by decide

theorem test_decode_tk5 : decodeKey 0b0101#4 = .tk5 := by decide

theorem test_decode_tk6 : decodeKey 0b0110#4 = .tk6 := by decide

theorem test_decode_tk7 : decodeKey 0b0111#4 = .tk7 := by decide

theorem test_decode_tk8 : decodeKey 0b1000#4 = .tk8 := by decide

theorem test_decode_tk9 : decodeKey 0b1001#4 = .tk9 := by decide

theorem test_decode_tk10 : decodeKey 0b1010#4 = .tk10 := by decide

theorem test_decode_tk11 : decodeKey 0b1011#4 = .tk11 := by decide

theorem test_decode_tk12 : decodeKey 0b1100#4 = .tk12 := by decide

theorem test_decode_tk13 : decodeKey 0b1101#4 = .tk13 := by decide

theorem test_decode_tk14 : decodeKey 0b1110#4 = .tk14 := by decide

theorem test_decode_tk15 : decodeKey 0b1111#4 = .tk15 := by decide

/-- Containers: the host's numbers of bits, and the rejections by name. -/
theorem test_containers :
    decodeTableWord 48 0x200000001F4 = some (.write 0 500#32) ∧ decodeTableWord 24 0x7FF7F = some (.irq 7#4 0xFF7F#16) ∧
    decodeTableWord 8 0x0D = some .tk13 ∧ decodeContainer 48 0x100000000000 = .error .paddingNotZero ∧
    decodeContainer 8 0x10 = .error .paddingNotZero ∧ decodeContainer 3 0 = .error .tooShort := by
  refine ⟨by decide, by decide, by decide, rfl, rfl, rfl⟩

/-! ### The transition keys: vectors V1.0 to V1.15, on channel 3 -/

/-- In phase `D_UPDATE` for pin 7 (channel 3), with 7 ticks and the history of the vector. -/
def atKey (history : BitVec 4) (sample : BitVec 2) : State :=
  { armed.setChan 3 { Channel.fresh 1000#32 with tickDelta := 7#32, history := history } with
    dphase := .update, lineArmed := false, irqPending := true, trigPin := 7#4, snap := snapWithPair 0xFFFF#16 3 sample }

theorem test_tk0 : recordOf 3 (exec .tk0 (atKey 0b1100#4 0b00#2)) =
    some { Channel.fresh 1000#32 with tickDelta := 7#32, history := 0b0000#4 } := by decide

theorem test_key_formed_0 : (atKey 0b1100#4 0b00#2).trigKey = 0b0000#4 := by decide

theorem test_tk1 : recordOf 3 (exec .tk1 (atKey 0b1000#4 0b01#2)) =
    some { Channel.fresh 1000#32 with tickDelta := 8#32, history := 0b0001#4 } := by decide

theorem test_key_formed_1 : (atKey 0b1000#4 0b01#2).trigKey = 0b0001#4 := by decide

theorem test_tk2 : recordOf 3 (exec .tk2 (atKey 0b0100#4 0b10#2)) =
    some { Channel.fresh 1000#32 with tickDelta := 6#32, history := 0b0010#4 } := by decide

theorem test_key_formed_2 : (atKey 0b0100#4 0b10#2).trigKey = 0b0010#4 := by decide

theorem test_tk3 : recordOf 3 (exec .tk3 (atKey 0b0000#4 0b11#2)) =
    some { Channel.fresh 1000#32 with tickDelta := 7#32, history := 0b0011#4 } := by decide

theorem test_key_formed_3 : (atKey 0b0000#4 0b11#2).trigKey = 0b0011#4 := by decide

theorem test_tk4 : recordOf 3 (exec .tk4 (atKey 0b1001#4 0b00#2)) =
    some { Channel.fresh 1000#32 with tickDelta := 6#32, history := 0b0100#4 } := by decide

theorem test_key_formed_4 : (atKey 0b1001#4 0b00#2).trigKey = 0b0100#4 := by decide

theorem test_tk5 : recordOf 3 (exec .tk5 (atKey 0b1101#4 0b01#2)) =
    some { Channel.fresh 1000#32 with tickDelta := 7#32, history := 0b0101#4 } := by decide

theorem test_key_formed_5 : (atKey 0b1101#4 0b01#2).trigKey = 0b0101#4 := by decide

theorem test_tk6 : recordOf 3 (exec .tk6 (atKey 0b0001#4 0b10#2)) =
    some { Channel.fresh 1000#32 with tickDelta := 7#32, history := 0b0110#4 } := by decide

theorem test_key_formed_6 : (atKey 0b0001#4 0b10#2).trigKey = 0b0110#4 := by decide

theorem test_tk7 : recordOf 3 (exec .tk7 (atKey 0b0101#4 0b11#2)) =
    some { Channel.fresh 1000#32 with tickDelta := 8#32, history := 0b0111#4 } := by decide

theorem test_key_formed_7 : (atKey 0b0101#4 0b11#2).trigKey = 0b0111#4 := by decide

theorem test_tk8 : recordOf 3 (exec .tk8 (atKey 0b0110#4 0b00#2)) =
    some { Channel.fresh 1000#32 with tickDelta := 8#32, history := 0b1000#4 } := by decide

theorem test_key_formed_8 : (atKey 0b0110#4 0b00#2).trigKey = 0b1000#4 := by decide

theorem test_tk9 : recordOf 3 (exec .tk9 (atKey 0b0010#4 0b01#2)) =
    some { Channel.fresh 1000#32 with tickDelta := 7#32, history := 0b1001#4 } := by decide

theorem test_key_formed_9 : (atKey 0b0010#4 0b01#2).trigKey = 0b1001#4 := by decide

theorem test_tk10 : recordOf 3 (exec .tk10 (atKey 0b1110#4 0b10#2)) =
    some { Channel.fresh 1000#32 with tickDelta := 7#32, history := 0b1010#4 } := by decide

theorem test_key_formed_10 : (atKey 0b1110#4 0b10#2).trigKey = 0b1010#4 := by decide

theorem test_tk11 : recordOf 3 (exec .tk11 (atKey 0b1010#4 0b11#2)) =
    some { Channel.fresh 1000#32 with tickDelta := 6#32, history := 0b1011#4 } := by decide

theorem test_key_formed_11 : (atKey 0b1010#4 0b11#2).trigKey = 0b1011#4 := by decide

theorem test_tk12 : recordOf 3 (exec .tk12 (atKey 0b0011#4 0b00#2)) =
    some { Channel.fresh 1000#32 with tickDelta := 7#32, history := 0b1100#4 } := by decide

theorem test_key_formed_12 : (atKey 0b0011#4 0b00#2).trigKey = 0b1100#4 := by decide

theorem test_tk13 : recordOf 3 (exec .tk13 (atKey 0b0111#4 0b01#2)) =
    some { Channel.fresh 1000#32 with tickDelta := 6#32, history := 0b1101#4 } := by decide

theorem test_key_formed_13 : (atKey 0b0111#4 0b01#2).trigKey = 0b1101#4 := by decide

theorem test_tk14 : recordOf 3 (exec .tk14 (atKey 0b1011#4 0b10#2)) =
    some { Channel.fresh 1000#32 with tickDelta := 8#32, history := 0b1110#4 } := by decide

theorem test_key_formed_14 : (atKey 0b1011#4 0b10#2).trigKey = 0b1110#4 := by decide

theorem test_tk15 : recordOf 3 (exec .tk15 (atKey 0b1111#4 0b11#2)) =
    some { Channel.fresh 1000#32 with tickDelta := 7#32, history := 0b1111#4 } := by decide

theorem test_key_formed_15 : (atKey 0b1111#4 0b11#2).trigKey = 0b1111#4 := by decide

/-- V2.5 and V2.6: the accumulator wraps. -/
theorem test_acc_wraps :
    (recordOf 0 (exec .tk1 (withRecord 0 (record 0x7FFFFFFF#32 0#32 0#32 0#32) 0#32))).map (·.tickDelta) = some 0x80000000#32 ∧
    (recordOf 0 (exec .tk2 (withRecord 0 (record 0x80000000#32 0#32 0#32 0#32) 0#32))).map (·.tickDelta) = some 0x7FFFFFFF#32 := by
  decide

/-! ### The interrupt operation -/

/-- V3.2 and V3.15. -/
theorem test_irq_extraction :
    recordOf 1 (exec (.irq 2#4 0xE41B#16) armed) =
      some { Channel.fresh 1000#32 with history := 0b0010#4, tickDelta := 0xFFFFFFFF#32 } ∧
    recordOf 7 (exec (.irq 15#4 0xE41B#16) armed) = some { Channel.fresh 1000#32 with history := 0b0011#4 } := by
  decide

/-- V3.16, the example of R93. -/
theorem test_irq_example :
    recordOf 3 (exec (.irq 7#4 0xFF7F#16) (armed.setChan 3 { Channel.fresh 1000#32 with history := 0b1111#4 })) =
      some { Channel.fresh 1000#32 with history := 0b1101#4, tickDelta := 0xFFFFFFFF#32 } := by
  decide

/-! ### READ -/

/-- V5.1 to V5.16. -/
theorem test_fast :
    fast 11 20 1 = true ∧ fast 11 20 100 = false ∧ fast 11 11 1 = false ∧ fast 11 12 1 = true ∧ fast 11 (-12) 1 = true ∧
    fast 11 22 2 = false ∧ fast 11 23 2 = true ∧ fast 11 (-23) 2 = true ∧ fast 11 500 0 = false ∧
    fast 11 (-2147483648) 195225786 = true ∧ fast 11 (-2147483648) 195225787 = false ∧ fast 11 12 4294967295 = false := by
  decide

/-- V6.1 to V6.14. -/
theorem test_scale :
    scale 20 0x40000000#32 = some 40 ∧ scale 13 0x3FC00000#32 = some 19 ∧ scale (-13) 0x3FC00000#32 = some (-19) ∧
    scale 15 0x3F000000#32 = some 7 ∧ scale 20 0xBF800000#32 = some (-20) ∧ scale 20 0x80000000#32 = some 0 ∧
    scale 12 0x3F7FFFFF#32 = some 11 ∧ scale 1000000000 0x3DCCCCCD#32 = some 100000001 ∧
    scale 16777217 0x3F800001#32 = some 16777219 ∧ scale 2147483647 0x00000001#32 = some 0 := by
  decide

/-- V6.16 and V6.21 to V6.24. -/
theorem test_scale_ends :
    scale 13 0x4F000000#32 = some 27917287424 ∧ scale 12 0x7F800000#32 = none ∧ scale 12 0xFF800000#32 = none ∧
    scale 12 0x7FC00000#32 = none ∧ scale 12 0x7F800001#32 = none := by
  decide

/-- V7.1 and V7.5: fast, scaled. -/
theorem test_read_fast :
    recordOf 1 (exec (.read 1 0#32) (withRecord 1 (record 20#32 1000#32 0#32 0x40000000#32) 1001#32)) =
      some (record 0#32 1001#32 40#32 0x40000000#32) ∧
    rspOf (exec (.read 1 0#32) (withRecord 1 (record (-23#32) 1000#32 0#32 0x40000000#32) 1002#32)) = some 0xFFFFFFD2#32 := by
  decide

/-- V7.7, V7.10 and V7.17: zero elapsed time, a wrapped clock, an infinite factor on a slow delta. -/
theorem test_read_corners :
    rspOf (exec (.read 1 0#32) (withRecord 1 (record 500#32 1000#32 0#32 0x40000000#32) 1000#32)) = some 500#32 ∧
    rspOf (exec (.read 1 0#32) (withRecord 1 (record 300#32 0xFFFFFFF0#32 0#32 0x40000000#32) 5#32)) = some 600#32 ∧
    rspOf (exec (.read 1 0#32) (withRecord 1 (record 12#32 1000#32 7#32 0x7F800000#32) 1100#32)) = some 19#32 := by
  decide

/-! ### Commands -/

/-- V8.11, V8.13. -/
theorem test_write :
    (recordOf 7 (exec (decodeCmd 0x207FFFFFFFF#44) armed)).map (·.position) = some 0xFFFFFFFF#32 ∧
    nextOf (exec (decodeCmd 0x20900000007#44) armed) = some { armed with rsp := some 0#32 } := by
  decide

/-- V8.16, V8.17. -/
theorem test_setacc :
    (recordOf 7 (exec (decodeCmd 0x3077FC00000#44) armed)).map (·.accel) = some 0x7FC00000#32 ∧
    nextOf (exec (decodeCmd 0x30840000000#44) armed) = some { armed with rsp := some 0#32 } := by
  decide

/-- V8.20: `RSVD 9`. -/
theorem test_rsvd : nextOf (exec (decodeCmd 0x9031234ABCD#44) armed) = some { armed with rsp := some 0#32 } := by decide

/-- V9.2: INIT at time 2000 over a used block. -/
theorem test_init :
    nextOf (exec (.init 0 0#32) { withRecord 4 (record 9#32 100#32 (-3#32) 0x40000000#32) 2000#32 with
      irqPending := true, lineArmed := false }) =
    some { State.resetAt 2000#32 with lineArmed := true, rsp := some 0#32 } := by
  decide

/-! ### Steps -/

/-- V4.2: a falling edge on an unarmed line is latched. -/
theorem test_fall_unarmed :
    (nextOf (clkEdge (lineAt false State.reset) { State.reset with intNQ := true })).map (fun t => (t.irqPending, t.cmdReady, t.startable)) =
      some (true, true, false) := by
  decide

/-- V4.6: ENTRY. -/
theorem test_entry :
    (nextOf (step { armed with irqPending := true })).map (fun t => (t.irqPending, t.lineArmed, t.gie, t.dphase)) =
      some (true, false, true, .qpin) := by
  decide

/-- V4.10 and R149(b): UPDATE clears the latch, though `int_n` falls at that instant. -/
theorem test_update_clear_wins :
    (nextOf (clkEdge (lineAt false armed) { atKey 0b0000#4 0b01#2 with intNQ := true })).map
      (fun t => (t.irqPending, t.lineArmed, t.dphase)) = some (false, true, .idle) := by
  decide

/-- R149(a): an edge at the instant a command is accepted is latched, and the command responds. -/
theorem test_edge_with_command :
    (nextOf (clkEdge { lineAt false armed with cmdValid := true, cmdWord := 0x10000000000#44 } { armed with intNQ := true })).map
      (fun t => (t.irqPending, t.rsp)) = some (true, some 0#32) := by
  decide

/-- The edge detector of V4: after reset the samples `0, 0, 1, 0, 0, 1, 1, 0` fall at the 4th and the 8th. -/
theorem test_edge_detector :
    ([(false, false), (false, false), (false, true), (true, false), (false, false), (false, true), (true, true), (true, false)].map
      (fun x => ({ State.reset with intNQ := x.1 }).fallingEdge x.2)) = [false, false, false, true, false, false, false, true] := by
  decide

/-- V9.1: a reset event over a block in service; `trig_pin` and `snap` are not looked at. -/
theorem test_reset_event :
    (nextOf (step { atKey 0b0000#4 0b01#2 with env := [.reset 777#32] })).map
      (fun t => (t.chan.toList, t.dphase)) = some (List.replicate 8 (Channel.fresh 777#32), .idle) ∧
    (nextOf (step { atKey 0b0000#4 0b01#2 with env := [.reset 777#32] })).map
      (fun t => [t.lineArmed, t.gie, t.irqPending, t.intNQ, t.cmdReady]) =
      some [false, true, false, false, true] := by
  decide

/-- R166: after reset, with nothing offered, nothing happens. -/
theorem test_reset_stays : nextOf (step State.reset) = some State.reset := by decide

/-- An operation put at reset is the first to run: `WRITE 0, 500`, `IRQ 4, 0x0010`, TK13. -/
theorem test_first_operation :
    (recordOf 0 (step (State.reset.withFetchWord 48 0x200000001F4))).map (·.position) = some 500#32 ∧
    (recordOf 2 (step (State.reset.withFetchWord 24 0x40010))).map (·.tickDelta) = some 1#32 ∧
    (recordOf 0 (step (State.reset.withFetchWord 8 0xD))).map (fun r => (r.history, r.tickDelta)) =
      some (0b1101#4, 0xFFFFFFFF#32) := by
  decide

/-- The spec's list of deltas and the classes agree (R71). -/
theorem test_delta_list : (List.range 16).map (fun k => delta Config.skipDelta (BitVec.ofNat 4 k)) = deltaList := by decide

/-! ### Witnesses: the hypotheses of each statement can be met -/

theorem witness_DecodeOfEncode : (Instr.read (-128) 7#32).wellFormed = true ∧ (Instr.write 127 7#32).wellFormed = true ∧
    (Instr.irq 15#4 0#16).wellFormed = true ∧ Instr.tk15.wellFormed = true := by decide
theorem witness_ResetAndInitControl : State.reset.dphase = .idle := rfl
/-- Invalid indices at both boundaries (WriteOverwritesPosition, SetaccOverwritesFactor, InvalidChannelChangesNothing,
ReadInvalidChannel). -/
theorem witness_invalid_channel : ((-1 : Int) < 0 ∨ 8 ≤ (-1 : Int)) ∧ ((8 : Int) < 0 ∨ 8 ≤ (8 : Int)) := by decide
theorem witness_InvalidChannelChangesNothing : Instr.read 8 0#32 ∈ [Instr.read 8 0#32, Instr.write 8 0#32, Instr.setacc 8 0#32] ∧
    Instr.setacc 8 0#32 ∈ [Instr.read 8 0#32, Instr.write 8 0#32, Instr.setacc 8 0#32] := by decide
theorem witness_ReservedOpcodesChangeNothing : Instr.rsvd4 0 0#32 ∈ [Instr.rsvd4 0 0#32, .rsvd5 0 0#32, .rsvd6 0 0#32,
    .rsvd7 0 0#32, .rsvd8 0 0#32, .rsvd9 0 0#32, .rsvd10 0 0#32, .rsvd11 0 0#32, .rsvd12 0 0#32, .rsvd13 0 0#32,
    .rsvd14 0 0#32, .rsvd15 0 0#32] := by decide
theorem witness_ChannelFieldIsSigned : chanOf (cmdCh 0x10700000000#44) = some 7 := by decide
/-- A fast record with a finite factor, and one exactly at the threshold, which is slow. -/
theorem witness_ReadDrainsIntoPosition_fast : IsFast 11 (record 12#32 1000#32 0#32 0x40000000#32) 1001#32 := by
  refine ⟨by decide, by decide⟩
theorem witness_ReadDrainsIntoPosition_slow : ¬ IsFast 11 (record 11#32 1000#32 0#32 0x40000000#32) 1001#32 :=
  fun h => absurd h.2 (by decide)
theorem witness_finite_factor : finiteValue 0x40000000#32 = some 2 := by
  norm_num [finiteValue, Nat.shiftRight_eq_div_pow]
theorem witness_ZeroElapsedReadIsUnscaled :
    (withRecord 1 (record 500#32 1000#32 0#32 0x40000000#32) 1000#32).chan[(1 : Fin 8)].lastReadTime =
      (withRecord 1 (record 500#32 1000#32 0#32 0x40000000#32) 1000#32).nowMs := by decide
theorem witness_FactorOneAddsTheRawDelta : State.reset.chan[(0 : Fin 8)].accel = 0x3F800000#32 ∧
    exec (.read 0 0#32) State.reset = .next (State.reset.suppressAll.drain 11 0).restoreAll := ⟨by decide, rfl⟩
theorem witness_FastIsTheExactVelocityTest : fast 11 12 1 = true := by decide
theorem witness_NonFiniteFactorReadCompletes :
    IsFast 11 (record 12#32 1000#32 7#32 0x7FC00000#32) 1001#32 ∧ finiteValue 0x7FC00000#32 = none :=
  ⟨⟨by decide, by decide⟩, by norm_num [finiteValue, Nat.shiftRight_eq_div_pow]⟩
theorem witness_ReadAfterWrite : ¬ IsFast 11 armed.chan[(0 : Fin 8)] armed.nowMs := fun h => absurd h.1 (by decide)
theorem witness_AccumulatorWraps :
    (withRecord 0 (record 0x7FFFFFFF#32 0#32 0#32 0#32) 0#32).chan[(withRecord 0 (record 0x7FFFFFFF#32 0#32 0#32 0#32) 0#32).trigChannel].tickDelta =
      0x7FFFFFFF#32 ∧
    (withRecord 0 (record 0x80000000#32 0#32 0#32 0#32) 0#32).chan[(withRecord 0 (record 0x80000000#32 0#32 0#32 0#32) 0#32).trigChannel].tickDelta =
      0x80000000#32 := by decide
theorem witness_FactorValueIsBinary32 : (0x3F800000#32).extractLsb' 23 8 ≠ 255#8 := by decide
/-- Also for TicksSumOverTestInterrupts, with a list of two operations. -/
theorem witness_IrqOperationNetEffect : armed.dphase = .idle ∧ armed.lineArmed = true ∧ armed.gie = true ∧
    (7 : Fin 8).val = (15#4 : BitVec 4).toNat / 2 ∧ (6 : Fin 8).val ≠ (15#4 : BitVec 4).toNat / 2 := by decide
theorem witness_IrqWithoutStartOnlyLatches : ¬ (State.reset.dphase = .idle ∧ State.reset.lineArmed = true ∧ State.reset.gie = true) ∧
    ¬ ((atKey 0#4 0#2).dphase = .idle ∧ (atKey 0#4 0#2).lineArmed = true ∧ (atKey 0#4 0#2).gie = true) := by decide
theorem witness_IrqUsesOnePairOnly : (6#4 : BitVec 4).toNat / 2 = (7#4 : BitVec 4).toNat / 2 ∧
    (0xFF7F#16 : BitVec 16).toNat / 4 ^ ((6#4 : BitVec 4).toNat / 2) % 4 = (0x0040#16 : BitVec 16).toNat / 4 ^ ((6#4 : BitVec 4).toNat / 2) % 4 := by
  decide
/-- One operation for each column of R16 with the fields it changes. -/
theorem witness_OnlyListedOperationsWriteAField :
    recordOf 3 (exec .tk1 (atKey 0#4 1#2)) = some { Channel.fresh 1000#32 with tickDelta := 8#32, history := 1#4 } ∧
    recordOf 1 (exec (.read 1 0#32) (withRecord 1 (record 1#32 1000#32 0#32 0x3F800000#32) 1001#32)) =
      some (record 0#32 1001#32 1#32 0x3F800000#32) ∧
    (recordOf 1 (exec (.setacc 1 7#32) armed)).map (·.accel) = some 7#32 := by decide
theorem witness_OnlyTheNamedRecordChanges : exec (.write 0 1#32) armed =
      .next ((armed.setChan 0 { armed.chan[(0 : Fin 8)] with position := 1#32 }).respond 0#32) ∧
    columnOf (.write 0 1#32) ≠ .init ∧ namedChannel (.write 0 1#32) armed ≠ some 1 := ⟨rfl, by decide, by decide⟩
/-- An offered command on a ready block, and on one that is not ready (StepRunsTheDecodedOperation, CommandAcceptance,
OneResponsePerCommand). -/
theorem witness_command_ready : armed.cmdReady = true ∧ { armed.quietPorts with cmdValid := true }.cmdValid = true ∧
    ({ armed with irqPending := true } : State).cmdReady = false ∧ (atKey 0#4 0#2).cmdReady = false ∧
    (State.cmdReady { State.reset with irqPending := true }) = true := by decide
theorem witness_StepRunsTheDecodedOperation_cmd :
    ({ armed with env := [.edge { armed.quietPorts with cmdValid := true }] } : State).env =
      [.edge { armed.quietPorts with cmdValid := true }] ∧ armed.cmdReady = true := by decide
theorem witness_StepRunsTheDecodedOperation_key :
    ({ atKey 0#4 1#2 with env := [.edge armed.quietPorts] } : State).dphase = .update ∧ armed.quietPorts.advance = true := by
  decide
theorem witness_StepRunsTheDecodedOperation_irq :
    ({ armed with env := [.irqOp 0x7FF7F#20] } : State).env = .irqOp 0x7FF7F#20 :: [] := rfl
/-- Channel boundaries of a READ word, and a word that is no READ of a valid channel. -/
theorem witness_OneResponsePerCommand : (0x10700000000#44).extractLsb' 40 4 = 1#4 ∧
    (0x10700000000#44).extractLsb' 32 8 = BitVec.ofNat 8 (7 : Fin 8).val ∧ (0x10800000000#44).extractLsb' 35 5 ≠ 0#5 ∧
    (0x20000000000#44).extractLsb' 40 4 ≠ 1#4 ∧ armed.quietPorts.cmdValid = false := by decide
theorem witness_InterruptEntry : State.startable { armed with irqPending := true } = true ∧ armed.quietPorts.advance = true := by
  decide
theorem witness_PinQueryPhase : ({ armed with dphase := .qpin } : State).dphase = .qpin ∧
    { armed.quietPorts with ppAck := true }.ppAck = true ∧ armed.quietPorts.ppAck = false := by decide
theorem witness_PortQueryPhase : ({ armed with dphase := .qport } : State).dphase = .qport ∧
    { armed.quietPorts with ppAck := true }.ppAck = true ∧ armed.quietPorts.ppAck = false := by decide
theorem witness_UpdatePhase : (atKey 0#4 1#2).dphase = .update ∧ armed.quietPorts.advance = true ∧
    (3 : Fin 8).val = (atKey 0#4 1#2).trigPin.toNat / 2 := by decide
/-- An edge with the latch clear, at a waiting block and at the instant of step 7; a latch that INIT clears. -/
theorem witness_PendingLatch : ({ armed with intNQ := true } : State).intNQ = true ∧ (lineAt false armed).intN = false ∧
    ¬ (armed.dphase = .update ∧ (lineAt false armed).advance = true) ∧ (atKey 0#4 0#2).dphase = .update ∧
    armed.irqPending = false ∧
    (nextOf (step { State.reset with irqPending := true, env := [.edge { State.reset.quietPorts with cmdValid := true }] })).map
      (·.irqPending) = some false := by decide
theorem witness_step : step State.reset = .next State.reset := rfl
theorem witness_LateAnswerIsIgnored : armed.ppReq = false ∧ (atKey 0#4 0#2).ppReq = false := by decide
theorem witness_UnarmedLineCountsNothing : State.reset.dphase = .idle ∧ State.reset.lineArmed = false ∧
    step State.reset = .next State.reset := ⟨rfl, rfl, rfl⟩
/-- The invariant holds idle and in service. -/
theorem witness_DispatcherInvIsKept : armed.DispatcherInv ∧ (atKey 0#4 1#2).DispatcherInv := by decide
/-- Two states that differ in record 2 agree otherwise. -/
theorem witness_ChannelsAreIsolated : AgreeBut 2 armed (armed.setChan 2 (record 1#32 2#32 3#32 4#32)) ∧
    armed.setChan 2 (record 1#32 2#32 3#32 4#32) ≠ armed := by decide
theorem witness_PhasesRefineTheIrqOperation : State.startable { armed with irqPending := true, intNQ := true } = true ∧
    ({ armed with intNQ := true } : State).irqPending = false ∧ ({ armed with intNQ := true } : State).intNQ = true := by decide
theorem witness_LowLineIsNeverServed : armed.Deaf ∧
    ∀ i ∈ [Input.edge { armed.quietPorts with intN := false, cmdValid := true }], i.lineLow :=
  ⟨by decide, fun i h => ⟨_, List.mem_singleton.1 h, rfl⟩⟩
theorem witness_TicksSumOverTestInterrupts :
    ({ armed with env := [(0#4, 1#16), (15#4, 0x4000#16)].map (fun o => Input.irqOp (o.1 ++ o.2)) ++ [] } : State).env =
      [(0#4, 1#16), (15#4, 0x4000#16)].map (fun o => Input.irqOp (o.1 ++ o.2)) ++ [] := rfl

/-- One record fast at a low threshold and slow at a high one (ReadTakesTheThreshold). -/
theorem witness_ReadTakesTheThreshold : 0 < 5 ∧ IsFast 5 (record 12#32 1000#32 0#32 0x40000000#32) 1002#32 ∧
    ¬ IsFast 6 (record 12#32 1000#32 0#32 0x40000000#32) 1002#32 := by decide
/-- A step that writes a record, and one that performs nothing (StepWritesOnlyListedFields, StepTouchesOneRecord). -/
theorem witness_StepTouchesOneRecord :
    ({ armed with env := [.edge (offer 0x200000001F4#44)] } : State).performs = .command (.write 0 500#32) ∧
    (recordOf 0 (step { armed with env := [.edge (offer 0x200000001F4#44)] })).map (·.position) = some 500#32 ∧
    (recordOf 1 (step { armed with env := [.edge (offer 0x200000001F4#44)] })) = some armed.chan[(1 : Fin 8)] ∧
    State.reset.performs = .nothing := by decide
/-- One edge for each way in which it performs nothing. -/
theorem witness_EdgeWithNoOperation :
    (armed.dphase = .idle ∧ ({ armed with irqPending := true } : State).irqPending = true ∧ armed.lineArmed = true ∧
      { armed.quietPorts with advance := false }.advance = false) ∧
    (¬ (armed.irqPending = true ∧ armed.lineArmed = true) ∧ armed.quietPorts.cmdValid = false) ∧
    (({ armed with dphase := .qpin } : State).dphase = .qpin ∧ armed.quietPorts.ppAck = false) ∧
    ({ armed with dphase := .qport } : State).dphase = .qport ∧ (atKey 0#4 0#2).dphase = .update := by decide
theorem witness_NothingUntilACommand : State.reset.dphase = .idle ∧ State.reset.lineArmed = false ∧
    ∀ i ∈ [Input.edge (lineAt true armed), Input.edge (lineAt false armed)], ∃ p : Ports, i = .edge p ∧ p.cmdValid = false :=
  ⟨rfl, rfl, by simp [lineAt, State.quietPorts]⟩
/-- Inputs with a tick of channel 0, a WRITE of it and a READ of another channel: none drains channel 0. -/
def mixed : State :=
  { armed with env := [.irqOp 0x00001#20, .edge (offer 0x200000001F4#44), .edge (offer 0x10300000000#44)] }
theorem witness_TicksSumBetweenDrains :
    ∀ k < 3, ∀ u, Host.Core.run core k mixed = .next u → ¬ u.drains 0 := by
  intro k hk u hu
  interval_cases k <;> cases hu <;> decide
theorem test_mixed_ticks : runTicks 0 3 mixed = 1 ∧
    State.drains 0 { armed with env := [.edge (offer 0x10000000000#44)] } ∧ State.drains 0 { armed with env := [.reset 7#32] } := by
  decide

end Sys2Proof.Tests
end

section
/-!
SUPPORT. READ held against exact arithmetic: elapsed time and the velocity test as integers (R105, R109), the value of a
factor as a rational (R110), the scaled delta as the truncated exact product (R111), and what READ leaves in the state.
-/

namespace Sys2Proof.Machine

/-! ### The velocity test -/

/-- The elapsed time as an integer (R105). -/
theorem elapsedMs_eq_elapsed (now last : Word32) : elapsedMs now last = elapsed now last := by
  simp only [elapsedMs, elapsed, uval, BitVec.toNat_sub]
  omega

/-- The velocity test on a record, as the model computes it (R109). -/
theorem isFast_iff_fast {v : Nat} {r : Channel} {now : Word32} :
    IsFast v r now ↔ fast v (sval r.tickDelta) (elapsed now r.lastReadTime) = true := by
  rw [fast_iff, IsFast, elapsedMs_eq_elapsed, Int.abs_eq_natAbs]
  norm_cast

/-! ### Truncation toward zero -/

/-- Truncation leaves an integer as it is. -/
@[simp] theorem truncRat_intCast (n : ℤ) : truncRat n = n := by
  simp [truncRat]

/-- Truncating a fraction is integer division toward zero (R29). -/
theorem truncRat_div (n : ℤ) (k : ℕ) : truncRat (n / k) = n.tdiv k := by
  obtain rfl | hk := k.eq_zero_or_pos
  · simp [truncRat]
  · have hk' : (0 : ℚ) < k := Nat.cast_pos.2 hk
    simp only [truncRat, le_div_iff₀ hk', zero_mul, Int.cast_nonneg_iff]
    split
    · next hn => rw [Rat.floor_intCast_div_natCast, Int.tdiv_eq_ediv_of_nonneg hn]
    · next hn =>
      rw [Rat.ceil_intCast_div_natCast, ← Int.tdiv_eq_ediv_of_nonneg (by omega), Int.neg_tdiv, neg_neg]

/-- The model's truncation of `num * 2^exp` is the truncation of that rational (R29). -/
theorem truncScaled_eq_truncRat (num exp : ℤ) : truncScaled num exp = truncRat (num * (2 : ℚ) ^ exp) := by
  unfold truncScaled
  split
  · next h =>
    obtain ⟨k, rfl⟩ := Int.eq_ofNat_of_zero_le h
    rw [zpow_natCast, Int.toNat_natCast, ← truncRat_intCast (num * 2 ^ k)]
    norm_cast
  · next h =>
    obtain ⟨k, rfl⟩ : ∃ k : ℕ, exp = -k := ⟨(-exp).toNat, by omega⟩
    rw [neg_neg, Int.toNat_natCast, zpow_neg, zpow_natCast, ← div_eq_mul_inv]
    exact_mod_cast (truncRat_div num (2 ^ k)).symm

/-! ### The factor -/

/-- The rational a decoded factor stands for (R110); `none` for a NaN or an infinity. -/
def Val32.toRat : Val32 → Option ℚ
  | .nan => none
  | .posInf => none
  | .negInf => none
  | .finite num exp => some (num * (2 : ℚ) ^ exp)

/-- The sign of a pattern, by its top bit (R110). -/
theorem sign_cast (b : Word32) :
    (((if b.getLsbD 31 then -1 else 1 : ℤ)) : ℚ) = (-1) ^ (b.extractLsb' 31 1).toNat := by
  have hbit : (b.extractLsb' 31 1).toNat = (b.getLsbD 31).toNat := by
    simp only [BitVec.extractLsb'_toNat, Nat.shiftRight_eq_div_pow, BitVec.getLsbD, Nat.toNat_testBit, pow_one]
  rw [hbit]
  cases b.getLsbD 31 <;> simp

/-- The factor the model decodes has the value of R110. -/
theorem finiteValue_eq_toRat (b : Word32) : finiteValue b = (val32 b).toRat := by
  unfold finiteValue val32
  dsimp only
  split
  · split
    · split <;> rfl
    · rfl
  · split <;> simp only [Val32.toRat, Int.cast_mul, Int.cast_add, Int.cast_pow, Int.cast_ofNat, Int.cast_natCast,
      sign_cast]

/-- For a finite factor `SCALE` is the exact product truncated toward zero (R111). -/
theorem scale_eq_truncRat {d : ℤ} {a : Word32} {f : ℚ} (hf : finiteValue a = some f) :
    scale d a = some (truncRat (d * f)) := by
  rw [finiteValue_eq_toRat] at hf
  unfold scale
  cases hv : val32 a with
  | finite num exp =>
    obtain rfl : num * (2 : ℚ) ^ exp = f := by simpa [hv, Val32.toRat] using hf
    simp only [truncScaled_eq_truncRat, Int.cast_mul, mul_assoc]
  | nan => simp [hv, Val32.toRat] at hf
  | posInf => simp [hv, Val32.toRat] at hf
  | negInf => simp [hv, Val32.toRat] at hf

/-! ### What READ leaves -/

/-- Any word is reached from any other by adding some integer. -/
theorem wrapS32_add_sub (p q : Word32) : wrapS32 (sval p + (sval q - sval p)) = q := by
  rw [add_sub_cancel, wrapS32, BitVec.ofInt_toInt]

/-- The position a READ leaves is the old one plus the raw delta when slow, plus the truncated exact product when fast
with a finite factor (R106, R111); with any other factor it is some word (R112). -/
theorem exists_readPosition_eq_add (v : Nat) (r : Channel) (now free : Word32) : ∃ add : ℤ,
    (¬ IsFast v r now → add = sval r.tickDelta) ∧
    (IsFast v r now → ∀ f : ℚ, finiteValue r.accel = some f → add = truncRat (sval r.tickDelta * f)) ∧
    readPosition v r now free = wrapS32 (sval r.position + add) := by
  by_cases hfast : IsFast v r now
  · have hpos := readPosition_fast (free := free) (isFast_iff_fast.1 hfast)
    cases hf : finiteValue r.accel with
    | some f =>
      refine ⟨truncRat (sval r.tickDelta * f), fun h => absurd hfast h, ?_, ?_⟩
      · rintro _ _ ⟨⟩
        rfl
      · rw [hpos, scale_eq_truncRat hf]
        rfl
    | none => exact ⟨_, fun h => absurd hfast h, fun _ _ h => (nomatch h), (wrapS32_add_sub _ _).symm⟩
  · refine ⟨_, fun _ => rfl, fun h => absurd h hfast, readPosition_slow ?_⟩
    rwa [isFast_iff_fast, Bool.not_eq_true] at hfast

/-- The records after READ of a valid channel (R106, R107). -/
theorem State.read_chan (v : Nat) (neutral : Word32) (c : Fin 8) (s : State) :
    (s.read v neutral c.val).chan =
      s.chan.set c (drainRecord v s.chan[c] s.nowMs (Config.freePosition s.freeCount)) := by
  simp [State.read_some (chanOf_val c)]

/-- The record of the channel read: drained (R106, R107). -/
theorem State.read_chan_self (v : Nat) (neutral : Word32) (c : Fin 8) (s : State) :
    (s.read v neutral c.val).chan[c] = drainRecord v s.chan[c] s.nowMs (Config.freePosition s.freeCount) := by
  simp [State.read_chan]

/-- READ responds with the position it leaves (R106). -/
theorem State.read_rsp (v : Nat) (neutral : Word32) (c : Fin 8) (s : State) :
    (s.read v neutral c.val).rsp = some (s.read v neutral c.val).chan[c].position := by
  rw [State.read_chan_self, State.read_some (chanOf_val c)]
  simp [drainRecord]

/-- READ of a valid channel leaves the other records (R17, R106). -/
theorem State.read_sameRecordsBut (v : Nat) (neutral : Word32) (c : Fin 8) (s : State) :
    SameRecordsBut c s (s.read v neutral c.val) := by
  intro c' hc'
  have hne : c.val ≠ c'.val := fun h => hc' (Fin.ext h.symm)
  simp [State.read_chan, Vector.getElem_set_ne, hne]

/-- Settles O54: the drain at any threshold is the exact arithmetic of `exists_readPosition_eq_add`, and an index outside
`0 .. 7` reaches no record. -/
theorem readTakesTheThreshold : Obligations.ReadTakesTheThreshold := by
  refine ⟨fun _ _ _ => rfl, fun v neutral s c _ => ?_,
    fun _ _ _ _ _ hch => State.read_none (chanOf_invalid hch)⟩
  obtain ⟨add, hslow, hfast, hpos⟩ :=
    exists_readPosition_eq_add v s.chan[c] s.nowMs (Config.freePosition s.freeCount)
  refine ⟨add, hslow, hfast, ?_, State.read_rsp v neutral c s, State.read_sameRecordsBut v neutral c s⟩
  rw [State.read_chan_self, drainRecord, hpos]

end Sys2Proof.Machine
end

section
/-!
SUPPORT. Who writes what (R16 to R23): what an operation and a step do to a record and to the control state, and the
invariant of the dispatcher.
-/

namespace Sys2Proof.Machine

/-! ### Every operation has a next state -/

/-- No operation faults or is refused (R150). -/
theorem exists_exec_next (i : Instr) (s : State) : ∃ t, exec i s = .next t := by
  cases i with
  | write _ _ | setacc _ _ =>
    simp only [exec, execWrite, execSetacc]
    split <;> exact ⟨_, rfl⟩
  | irq _ _ =>
    simp only [exec, execIrq]
    split <;> exact ⟨_, rfl⟩
  | _ => exact ⟨_, rfl⟩

/-- Every edge of `clk` has a next state (R150). -/
theorem exists_clkEdge_next (p : Ports) (s : State) : ∃ t, clkEdge p s = .next t := by
  cases hs : s.dphase with
  | idle =>
    by_cases hc : p.cmdValid = true ∧ s.cmdReady = true
    · obtain ⟨u, hu⟩ := exists_exec_next (decodeCmd p.cmdWord) (s.sample p.intN p.nowMs)
      exact ⟨_, by rw [clkEdge_command hc.1 hc.2, hu, andThen_next]⟩
    · cases hst : s.startable with
      | false => exact ⟨_, clkEdge_idle_waits hs hst hc⟩
      | true =>
        cases ha : p.advance with
        | false => exact ⟨_, clkEdge_startable_waits hst ha⟩
        | true => exact ⟨_, clkEdge_entry hst ha⟩
  | qpin => exact ⟨_, clkEdge_qpin hs⟩
  | qport => exact ⟨_, clkEdge_qport hs⟩
  | update => exact ⟨_, clkEdge_update hs⟩

/-! ### Decoded operations: format, column, channel named -/

/-- A command word decodes to a command (R51). -/
theorem format_decodeCmd (w : BitVec 44) : (decodeCmd w).format = .cmd := by
  unfold decodeCmd commandOf
  split <;> rfl

/-- Only the opcode 0 decodes to INIT (R51). -/
theorem cmdOp_eq_zero_of_init {w : BitVec 44} (h : columnOf (decodeCmd w) = .init) : cmdOp w = 0#4 := by
  unfold decodeCmd commandOf at h
  split at h
  next h0 => exact BitVec.eq_of_toNat_eq h0
  all_goals exact nomatch h

@[simp] theorem format_decodeKey (k : BitVec 4) : (decodeKey k).format = .key4 := by
  unfold decodeKey
  split <;> rfl

@[simp] theorem columnOf_decodeKey (k : BitVec 4) : columnOf (decodeKey k) = .irq := by
  unfold decodeKey
  split <;> rfl

@[simp] theorem namedChannel_decodeKey (k : BitVec 4) (s : State) :
    namedChannel (decodeKey k) s = some s.trigChannel := by
  unfold decodeKey
  split <;> rfl

/-- Sampling the inputs does not change which channel an operation names. -/
@[simp] theorem namedChannel_sample (i : Instr) (s : State) (b : Bool) (t : Word32) :
    namedChannel i (s.sample b t) = namedChannel i s := by
  cases i <;> rfl

/-- The inputs to come do not matter to which channel an operation names. -/
@[simp] theorem namedChannel_env (i : Instr) (s : State) (e : List Input) :
    namedChannel i { s with env := e } = namedChannel i s := by
  cases i <;> rfl

/-! ### Records: the table of writers -/

/-- R16's table and R17: what an operation of a column can leave in a record that held `r`, `named` saying that this is
the record the operation names. -/
inductive RecordEffect (named : Prop) (r : Channel) : Column → Channel → Prop
  | keep (col : Column) : RecordEffect named r col r
  | init (r' : Channel) : RecordEffect named r .init r'
  | irq (h : named) (history : BitVec 4) (tickDelta : Word32) :
      RecordEffect named r .irq { r with history := history, tickDelta := tickDelta }
  | read (h : named) (tickDelta lastReadTime position : Word32) :
      RecordEffect named r .read
        { r with tickDelta := tickDelta, lastReadTime := lastReadTime, position := position }
  | write (h : named) (position : Word32) : RecordEffect named r .write { r with position := position }
  | setacc (h : named) (accel : Word32) : RecordEffect named r .setacc { r with accel := accel }

/-- A field differs only under a column R16 lists for it. -/
theorem RecordEffect.fieldWriters {named : Prop} {r r' : Channel} {col : Column} (h : RecordEffect named r col r') :
    (r'.tickDelta ≠ r.tickDelta → col ∈ [.irq, .read, .init]) ∧
    (r'.history ≠ r.history → col ∈ [.irq, .init]) ∧
    (r'.lastReadTime ≠ r.lastReadTime → col ∈ [.read, .init]) ∧
    (r'.position ≠ r.position → col ∈ [.read, .write, .init]) ∧
    (r'.accel ≠ r.accel → col ∈ [.setacc, .init]) := by
  cases h <;> simp

/-- A record the operation does not name is unchanged, but by INIT and reset (R17). -/
theorem RecordEffect.eq_of_not_named {named : Prop} {r r' : Channel} {col : Column} (h : RecordEffect named r col r')
    (hcol : col ≠ .init) (hn : ¬ named) : r' = r := by
  cases h with
  | keep => rfl
  | init => exact absurd rfl hcol
  | irq h | read h | write h | setacc h => exact absurd h hn

/-- The effect on each record of an operation that names `c₀` and stores `r'` there. -/
theorem RecordEffect.of_set {s : State} {c₀ : Fin 8} {col : Column} {r' : Channel}
    (h : RecordEffect True s.chan[c₀] col r') (c : Fin 8) :
    RecordEffect (some c₀ = some c) s.chan[c] col (s.setChan c₀ r').chan[c] := by
  obtain rfl | hne := eq_or_ne c c₀
  · rw [State.setChan_same]
    simpa using h
  · rw [State.setChan_other _ _ _ _ hne]
    exact .keep _

/-- What an operation does to each record (R16, R17). -/
theorem exec_recordEffect {i : Instr} {s t : State} (h : exec i s = .next t) (c : Fin 8) :
    RecordEffect (namedChannel i s = some c) s.chan[c] (columnOf i) t.chan[c] := by
  obtain ⟨_, _, rfl, rfl⟩ | ⟨_, _, c₀, rfl, hc, rfl⟩ | ⟨_, v, c₀, rfl, hc, rfl⟩ | ⟨_, f, c₀, rfl, hc, rfl⟩ |
    ⟨_, rfl⟩ | ⟨p, w, rfl, _, rfl⟩ | ⟨_, _, rfl, _, rfl⟩ | ⟨k, rfl, rfl⟩ := exec_inv h
  · exact .init _
  · rw [namedChannel, hc]
    exact RecordEffect.of_set (.read trivial _ _ _) c
  · rw [namedChannel, hc]
    exact RecordEffect.of_set (.write trivial v) c
  · rw [namedChannel, hc]
    exact RecordEffect.of_set (.setacc trivial f) c
  · exact .keep _
  · rw [State.service_chan]
    split
    · next hp => exact .irq (congrArg some hp.symm) _ _
    · exact .keep _
  · exact .keep _
  · rw [State.transition_chan, columnOf_decodeKey, namedChannel_decodeKey]
    split
    · next hc => exact .irq (congrArg some hc.symm) _ _
    · exact .keep _

/-- Settles O34, by the table of writers. -/
theorem onlyListedOperationsWriteAField : Obligations.OnlyListedOperationsWriteAField :=
  fun _ _ _ h c => (exec_recordEffect h c).fieldWriters

/-- Settles O35, by the table of writers. -/
theorem onlyTheNamedRecordChanges : Obligations.OnlyTheNamedRecordChanges :=
  fun _ _ _ h hcol c hn => (exec_recordEffect h c).eq_of_not_named hcol hn

/-! ### Control state: what a host command does -/

/-- What a host command can do to the control state: it responds (R54), INIT alone touches line and latch (R18, R20),
READ and INIT end with interrupts enabled (R19), and the rest stays (R21 to R23). -/
structure CommandEffect (i : Instr) (s t : State) : Prop where
  dphase : t.dphase = s.dphase
  trigPin : t.trigPin = s.trigPin
  snap : t.snap = s.snap
  intNQ : t.intNQ = s.intNQ
  responds : t.rsp ≠ none
  lineArmed : t.lineArmed = s.lineArmed ∨ columnOf i = .init
  irqPending : t.irqPending = s.irqPending ∨ (columnOf i = .init ∧ t.irqPending = false)
  gie : t.gie = s.gie ∨ (columnOf i ∈ [.read, .init] ∧ t.gie = true)

/-- Every host command has that effect. -/
theorem exec_commandEffect {i : Instr} {s t : State} (hi : i.format = .cmd) (h : exec i s = .next t) :
    CommandEffect i s t := by
  obtain ⟨_, _, rfl, rfl⟩ | ⟨_, _, _, rfl, _, rfl⟩ | ⟨_, _, _, rfl, _, rfl⟩ | ⟨_, _, _, rfl, _, rfl⟩ |
    ⟨_, rfl⟩ | ⟨_, _, rfl, _⟩ | ⟨_, _, rfl, _⟩ | ⟨k, rfl, _⟩ := exec_inv h
  · constructor <;> simp [columnOf]
  · constructor <;> simp [columnOf]
  · constructor <;> simp
  · constructor <;> simp
  · constructor <;> simp
  · exact nomatch hi
  · exact nomatch hi
  · simp at hi

/-- The interrupt operation as one function: it starts, idle with the line armed and interrupts enabled, and runs whole,
or it only latches the edge (R63, R139). -/
theorem exec_irq_cases {p : BitVec 4} {w : BitVec 16} {s t : State} (h : exec (.irq p w) s = .next t) :
    (s.dphase = .idle ∧ s.lineArmed = true ∧ s.gie = true ∧ t = s.latchFall.service p w) ∨ t = s.latchFall := by
  simp only [exec, execIrq] at h
  split at h <;> cases h
  · next hst =>
    obtain ⟨hd, -, hl, hg⟩ := State.startable_iff.1 hst
    exact .inl ⟨hd, hl, hg, rfl⟩
  · exact .inr rfl

/-! ### The dispatcher's invariant -/

section DispatcherInv

variable {s : State}

theorem State.DispatcherInv.latchIf (h : s.DispatcherInv) (b : Bool) : (s.latchIf b).DispatcherInv := by
  obtain ⟨hgie, hserv, hrsp⟩ := h
  exact ⟨by simpa using hgie, fun hd => by simp [hserv (by simpa using hd)], by simpa using hrsp⟩

theorem State.DispatcherInv.sample (h : s.DispatcherInv) (b : Bool) (t : Word32) : (s.sample b t).DispatcherInv := by
  obtain ⟨hgie, hserv, -⟩ := h
  exact ⟨hgie, hserv, fun hrsp => absurd rfl hrsp⟩

/-- Taking an input off the list and ending the response keeps the invariant. -/
theorem State.DispatcherInv.without_rsp (h : s.DispatcherInv) (e : List Input) :
    State.DispatcherInv { s with env := e, rsp := none } := by
  obtain ⟨hgie, hserv, -⟩ := h
  exact ⟨hgie, hserv, fun hrsp => absurd rfl hrsp⟩

/-- During a service no response stands. -/
theorem State.DispatcherInv.rsp_eq_none (h : s.DispatcherInv) (hd : s.dphase ≠ .idle) : s.rsp = none := by
  obtain ⟨-, -, hrsp⟩ := h
  exact of_not_not fun hne => hd (hrsp hne)

/-- ENTRY suppresses the line and keeps the latch that started it (R140, R141). -/
theorem State.dispatcherInv_entry (hp : s.irqPending = true) (hrsp : s.rsp = none) : s.entry.DispatcherInv :=
  ⟨rfl, fun _ => ⟨rfl, hp⟩, fun h => absurd hrsp h⟩

theorem State.DispatcherInv.qpin (h : s.DispatcherInv) (hd : s.dphase ≠ .idle) (p : BitVec 4) :
    (s.qpin p).DispatcherInv := by
  have hnone := h.rsp_eq_none hd
  obtain ⟨hgie, hserv, -⟩ := h
  exact ⟨hgie, fun _ => hserv hd, fun hrsp => absurd hnone hrsp⟩

theorem State.DispatcherInv.qport (h : s.DispatcherInv) (hd : s.dphase ≠ .idle) (w : BitVec 16) :
    (s.qport w).DispatcherInv := by
  have hnone := h.rsp_eq_none hd
  obtain ⟨hgie, hserv, -⟩ := h
  exact ⟨hgie, fun _ => hserv hd, fun hrsp => absurd hnone hrsp⟩

/-- An idle block needs interrupts enabled, and nothing else. -/
theorem State.dispatcherInv_of_idle (hd : s.dphase = .idle) (hg : s.gie = true) : s.DispatcherInv :=
  ⟨hg, fun hne => absurd hd hne, fun _ => hd⟩

/-- A host command, accepted while idle, keeps the invariant (R19, R148). -/
theorem CommandEffect.dispatcherInv {i : Instr} {t : State} (e : CommandEffect i s t) (h : s.DispatcherInv)
    (hd : s.dphase = .idle) : t.DispatcherInv := by
  refine State.dispatcherInv_of_idle (e.dphase.trans hd) ?_
  obtain hg | ⟨-, hg⟩ := e.gie
  · exact hg.trans h.1
  · exact hg

/-- Every edge of `clk` keeps the invariant, whichever operation it performs. -/
theorem clkEdge_dispatcherInv {p : Ports} {t : State} (h : s.DispatcherInv) (hstep : clkEdge p s = .next t) :
    t.DispatcherInv := by
  have h0 := h.sample p.intN p.nowMs
  obtain ⟨hst, -, rfl⟩ | ⟨-, hr, u, hu, rfl⟩ | ⟨hd, -, rfl⟩ | ⟨hd, -, rfl⟩ | ⟨-, -, rfl⟩ | ⟨-, -, rfl⟩ :=
    clkEdge_inv hstep
  · obtain ⟨-, hp, -, -⟩ := State.startable_iff.1 hst
    exact (State.dispatcherInv_entry (s := s.sample p.intN p.nowMs) hp rfl).latchIf _
  · obtain ⟨hd, -⟩ := State.cmdReady_iff.1 hr
    exact ((exec_commandEffect (format_decodeCmd _) hu).dispatcherInv h0 hd).latchIf _
  · exact (h0.qpin (by simp [hd]) _).latchIf _
  · exact (h0.qport (by simp [hd]) _).latchIf _
  · exact State.dispatcherInv_of_idle rfl h0.1
  · exact h0.latchIf _

/-- The interrupt operation keeps the invariant: run whole it ends idle, else it only latches the edge (R145). -/
theorem exec_irq_dispatcherInv {p : BitVec 4} {w : BitVec 16} {t : State} (h : s.DispatcherInv)
    (hexec : exec (.irq p w) s = .next t) : t.DispatcherInv := by
  obtain ⟨-, -, -, rfl⟩ | rfl := exec_irq_cases hexec
  · exact State.dispatcherInv_of_idle rfl rfl
  · exact h.latchIf true

/-- A hardware reset ends in the invariant (R27). -/
theorem State.dispatcherInv_hardwareReset (s : State) (t : Word32) : (s.hardwareReset t).DispatcherInv :=
  State.dispatcherInv_of_idle rfl rfl

end DispatcherInv

/-- Settles O48: the invariant is kept by an edge, by a reset event and by the test form. -/
theorem dispatcherInvIsKept : Obligations.DispatcherInvIsKept := by
  intro s t h hstep
  obtain ⟨p, -, hedge⟩ | ⟨n, -, rfl⟩ | ⟨w, -, hexec⟩ := step_performs hstep
  · exact clkEdge_dispatcherInv (s := { s with env := s.env.tail }) h hedge
  · exact State.dispatcherInv_hardwareReset _ n
  · exact exec_irq_dispatcherInv (h.without_rsp s.env.tail) hexec

/-- Settles O49: a block that is idle with interrupts enabled has the invariant. -/
theorem dispatcherInvAtReset : Obligations.DispatcherInvAtReset :=
  ⟨State.dispatcherInv_of_idle rfl rfl, State.dispatcherInv_hardwareReset⟩

/-! ### What a step writes -/

/-- Which operation a step must perform to write each control field (R18, R19, R21, R22), and to respond (R54). -/
def ControlWriters (o : Performed) (s t : State) : Prop :=
  (t.lineArmed ≠ s.lineArmed → o = .entry ∨ o.column ∈ [.irq, .init]) ∧
  (t.gie ≠ s.gie → o.column ∈ [.read, .init]) ∧
  (t.dphase ≠ s.dphase → o ∈ [.entry, .qpin, .qport, .update, .reset]) ∧
  (t.trigPin ≠ s.trigPin → o ∈ [.qpin, .reset] ∨ ∃ w, o = .irqOp w) ∧
  (t.snap ≠ s.snap → o ∈ [.qport, .reset] ∨ ∃ w, o = .irqOp w) ∧
  (t.rsp ≠ none → ∃ i, o = .command i)

/-- A host command writes only the control fields it may. -/
theorem CommandEffect.controlWriters {i : Instr} {s t : State} (e : CommandEffect i s t) (b : Bool) :
    ControlWriters (.command i) s (t.latchIf b) := by
  have hline := e.lineArmed.resolve_left
  have hgie := fun h => (e.gie.resolve_left h).1
  simp only [ControlWriters, Performed.column, State.latchIf_lineArmed, State.latchIf_gie, State.latchIf_dphase,
    State.latchIf_trigPin, State.latchIf_snap]
  exact ⟨fun h => .inr (by simp [hline h]), hgie, fun h => absurd e.dphase h, fun h => absurd e.trigPin h,
    fun h => absurd e.snap h, fun _ => ⟨i, rfl⟩⟩

/-- What an edge writes of the control state, by the operation it performs. -/
theorem clkEdge_controlWriters {p : Ports} {s t : State} (h : clkEdge p s = .next t) :
    ControlWriters (s.performsAt p) s t := by
  obtain ⟨ho, rfl⟩ | ⟨ho, hst, rfl⟩ | ⟨ho, -, u, hu, rfl⟩ | ⟨ho, rfl⟩ | ⟨ho, rfl⟩ | ⟨ho, rfl⟩ := clkEdge_performs h <;>
    rw [ho]
  · simp [ControlWriters]
  · obtain ⟨-, -, -, hg⟩ := State.startable_iff.1 hst
    simp [ControlWriters, hg]
  · exact (exec_commandEffect (s := s.sample p.intN p.nowMs) (format_decodeCmd _) hu).controlWriters _
  · simp [ControlWriters]
  · simp [ControlWriters]
  · simp [ControlWriters, Performed.column, State.update]

/-- What the test form writes of the control state; a service starts only with interrupts enabled and idle. -/
theorem exec_irqOp_controlWriters {w : BitVec 20} {s t : State} (hrsp : s.rsp = none)
    (h : exec (decodeIrqOp w) s = .next t) : ControlWriters (.irqOp w) s t := by
  obtain ⟨hd, -, hg, rfl⟩ | rfl := exec_irq_cases h
  · simp [ControlWriters, Performed.column, State.service_eq, hd, hg, hrsp]
  · simp [ControlWriters, hrsp]

/-- What a step writes of the control state, by the operation it performs. -/
theorem step_controlWriters {s t : State} (h : step s = .next t) : ControlWriters s.performs s t := by
  obtain ⟨p, ho, hedge⟩ | ⟨n, ho, rfl⟩ | ⟨w, ho, hexec⟩ := step_performs h <;> rw [ho]
  · exact clkEdge_controlWriters (s := { s with env := s.env.tail }) hedge
  · simp [ControlWriters, Performed.column]
  · exact exec_irqOp_controlWriters (s := { s with env := s.env.tail, rsp := none }) rfl hexec

/-- UPDATE does to each record what the interrupt operation may (R93). -/
theorem State.update_recordEffect (s : State) (c : Fin 8) :
    RecordEffect (some s.trigChannel = some c) s.chan[c] .irq s.update.chan[c] := by
  have h := exec_recordEffect (exec_decodeKey s.trigKey s) c
  rwa [namedChannel_decodeKey, columnOf_decodeKey] at h

/-- What an edge does to each record, by the operation it performs. -/
theorem clkEdge_recordEffect {p : Ports} {s t : State} (h : clkEdge p s = .next t) (c : Fin 8) :
    RecordEffect ((s.performsAt p).names s = some c) s.chan[c] (s.performsAt p).column t.chan[c] := by
  obtain ⟨ho, rfl⟩ | ⟨ho, -, rfl⟩ | ⟨ho, -, u, hu, rfl⟩ | ⟨ho, rfl⟩ | ⟨ho, rfl⟩ | ⟨ho, rfl⟩ := clkEdge_performs h <;>
    rw [ho]
  · rw [State.waits_chan]; exact .keep _
  · rw [State.latchIf_chan]; exact .keep _
  · rw [State.latchIf_chan]
    have hu := exec_recordEffect hu c
    rwa [namedChannel_sample] at hu
  · rw [State.latchIf_chan]; exact .keep _
  · rw [State.latchIf_chan]; exact .keep _
  · exact (s.sample p.intN p.nowMs).update_recordEffect c

/-- The inputs to come do not matter to which channel an operation names. -/
theorem Performed.names_env (o : Performed) (s : State) (e : List Input) : o.names { s with env := e } = o.names s := by
  cases o with
  | command i => exact namedChannel_env i s e
  | _ => rfl

/-- What a step does to each record, by the operation it performs (R16, R17). -/
theorem step_recordEffect {s t : State} (h : step s = .next t) (c : Fin 8) :
    RecordEffect (s.performs.names s = some c) s.chan[c] s.performs.column t.chan[c] := by
  obtain ⟨p, ho, hedge⟩ | ⟨n, ho, rfl⟩ | ⟨w, ho, hexec⟩ := step_performs h <;> rw [ho]
  · have hedge := clkEdge_recordEffect hedge c
    rwa [Performed.names_env] at hedge
  · exact .init _
  · exact exec_recordEffect hexec c

/-- Settles O55: the table of writers of the records, and the writers of the control state. -/
theorem stepWritesOnlyListedFields : Obligations.StepWritesOnlyListedFields :=
  fun _ _ h => ⟨fun c => (step_recordEffect h c).fieldWriters, step_controlWriters h⟩

/-- Settles O56, by the table of writers. -/
theorem stepTouchesOneRecord : Obligations.StepTouchesOneRecord :=
  fun _ _ h hcol c hn => (step_recordEffect h c).eq_of_not_named hcol hn

/-! ### The latch and the phase -/

/-- The edge accepts an INIT (R120, R148). -/
abbrev State.acceptsInit (p : Ports) (s : State) : Prop :=
  p.cmdValid = true ∧ s.cmdReady = true ∧ cmdOp p.cmdWord = 0#4

/-- Any edge but that of step 7 remembers the level of `int_n` and latches a fall last (R23, R138, R149); until then the
latch stands as it was, or an accepted INIT has cleared it. -/
theorem clkEdge_latches {p : Ports} {s t : State} (h : clkEdge p s = .next t)
    (hstep7 : ¬ (s.dphase = .update ∧ p.advance = true)) :
    ∃ u : State, t = u.latchIf (s.fallingEdge p.intN) ∧ u.intNQ = p.intN ∧
      (u.irqPending = s.irqPending ∨ (s.acceptsInit p ∧ u.irqPending = false)) := by
  obtain ⟨-, -, rfl⟩ | ⟨hv, hr, u, hu, rfl⟩ | ⟨-, -, rfl⟩ | ⟨-, -, rfl⟩ | ⟨hd, ha, -⟩ | ⟨-, -, rfl⟩ := clkEdge_inv h
  · exact ⟨_, rfl, rfl, .inl rfl⟩
  · have e := exec_commandEffect (format_decodeCmd _) hu
    refine ⟨u, rfl, e.intNQ, e.irqPending.imp id ?_⟩
    rintro ⟨hinit, hclear⟩
    exact ⟨⟨hv, hr, cmdOp_eq_zero_of_init hinit⟩, hclear⟩
  · exact ⟨_, rfl, rfl, .inl rfl⟩
  · exact ⟨_, rfl, rfl, .inl rfl⟩
  · exact absurd ⟨hd, ha⟩ hstep7
  · exact ⟨_, rfl, rfl, .inl rfl⟩

/-- The edge of step 7 remembers the level and leaves the latch clear, whatever `int_n` does (R145, R149(b)). -/
theorem clkEdge_step7 {p : Ports} {s t : State} (h : clkEdge p s = .next t) (hd : s.dphase = .update)
    (ha : p.advance = true) : t.intNQ = p.intN ∧ t.irqPending = false := by
  rw [clkEdge_update hd, if_pos ha] at h
  cases h
  exact ⟨rfl, rfl⟩

/-- An edge that clears the latch is in `D_UPDATE` or accepts an INIT. -/
theorem clkEdge_clears_latch {p : Ports} {s t : State} (h : clkEdge p s = .next t) (hs : s.irqPending = true)
    (ht : t.irqPending = false) : s.dphase = .update ∨ s.acceptsInit p := by
  by_cases hstep7 : s.dphase = .update ∧ p.advance = true
  · exact .inl hstep7.1
  · obtain ⟨u, rfl, -, hu | ⟨hinit, -⟩⟩ := clkEdge_latches h hstep7
    · simp [hu, hs] at ht
    · exact .inr hinit

/-- Settles O44: the edge of step 7 apart, an edge latches a fall last (`clkEdge_latches`). -/
theorem pendingLatch : Obligations.PendingLatch := by
  refine ⟨fun s p rest => ?_, fun s t h hs ht => ?_⟩
  · obtain ⟨t, h⟩ := exists_clkEdge_next p { s with env := rest }
    refine ⟨t, h, ?_⟩
    by_cases hstep7 : s.dphase = .update ∧ p.advance = true
    · obtain ⟨hq, hclear⟩ := clkEdge_step7 h hstep7.1 hstep7.2
      exact ⟨hq, fun _ hn => absurd hstep7 hn, fun _ => hclear, fun _ _ => hclear⟩
    · obtain ⟨u, rfl, hq, hu⟩ := clkEdge_latches h hstep7
      have hfell := State.fallingEdge_iff (s := { s with env := rest }) (b := p.intN)
      simp only [State.latchIf_intNQ, State.latchIf_irqPending]
      refine ⟨hq, fun hf _ => by simp [hfell.2 hf], fun h7 => absurd h7 hstep7, fun hf hs => ?_⟩
      have hu' : u.irqPending = false := hu.elim (·.trans hs) (·.2)
      simp [Bool.eq_false_iff.2 (mt hfell.1 hf), hu']
  · rcases he : s.env with _ | ⟨p | n | w, rest⟩
    · rw [step_quiet he] at h
      obtain hd | ⟨hv, -⟩ := clkEdge_clears_latch h hs ht
      · exact .inl hd
      · exact nomatch hv
    · rw [step_edge he] at h
      obtain hd | ⟨hv, hr, hop⟩ := clkEdge_clears_latch h hs ht
      · exact .inl hd
      · exact .inr (.inl ⟨p, rest, rfl, hv, hr, hop⟩)
    · exact .inr (.inr (.inl ⟨n, rest, rfl⟩))
    · exact .inr (.inr (.inr ⟨w, rest, rfl⟩))

/-- One move of the phase; `byReset` says that the step is a reset (R24, R139). -/
def PhaseMoves (byReset : Prop) (s t : State) : Prop :=
  t.dphase = s.dphase ∨
  (s.dphase = .idle ∧ t.dphase = .qpin ∧ s.irqPending = true ∧ s.lineArmed = true ∧ s.gie = true) ∨
  (s.dphase = .qpin ∧ t.dphase = .qport) ∨
  (s.dphase = .qport ∧ t.dphase = .update) ∨
  (s.dphase = .update ∧ t.dphase = .idle) ∨
  (byReset ∧ t.dphase = .idle)

/-- An edge moves the phase in the one order. -/
theorem clkEdge_phaseMoves {byReset : Prop} {p : Ports} {s t : State} (h : clkEdge p s = .next t) :
    PhaseMoves byReset s t := by
  obtain ⟨hst, -, rfl⟩ | ⟨-, -, u, hu, rfl⟩ | ⟨hd, -, rfl⟩ | ⟨hd, -, rfl⟩ | ⟨hd, -, rfl⟩ | ⟨-, -, rfl⟩ := clkEdge_inv h
  · obtain ⟨hd, hp, hl, hg⟩ := State.startable_iff.1 hst
    exact .inr (.inl ⟨hd, by simp, hp, hl, hg⟩)
  · exact .inl (by simp [(exec_commandEffect (format_decodeCmd _) hu).dphase])
  · exact .inr (.inr (.inl ⟨hd, by simp⟩))
  · exact .inr (.inr (.inr (.inl ⟨hd, by simp⟩)))
  · exact .inr (.inr (.inr (.inr (.inl ⟨hd, rfl⟩))))
  · exact .inl (by simp)

/-- The interrupt operation as one function starts and ends idle, or leaves the phase (R95). -/
theorem exec_irq_dphase {p : BitVec 4} {w : BitVec 16} {s t : State} (h : exec (.irq p w) s = .next t) :
    t.dphase = s.dphase := by
  obtain ⟨hd, -, -, rfl⟩ | rfl := exec_irq_cases h
  · exact hd.symm
  · rfl

/-- Settles O45: an edge moves the phase in order, the test form leaves it, and a reset ends in `D_IDLE`. -/
theorem phaseAdvancesInOrder : Obligations.PhaseAdvancesInOrder := by
  intro s t h
  rcases he : s.env with _ | ⟨p | n | w, rest⟩
  · rw [step_quiet he] at h
    exact clkEdge_phaseMoves h
  · rw [step_edge he] at h
    exact clkEdge_phaseMoves (s := { s with env := rest }) h
  · rw [step_reset he] at h
    cases h
    exact .inr (.inr (.inr (.inr (.inr ⟨⟨n, rest, rfl⟩, rfl⟩))))
  · rw [step_irqOp he] at h
    exact .inl (exec_irq_dphase (s := { s with env := rest, rsp := none }) h)

/-! ### An edge that performs nothing -/

/-- Where an edge performs nothing: the state it leaves, written out (R23, R138). -/
theorem State.waits_eq (s : State) (p : Ports) : s.waits p = { s with
    intNQ := p.intN, nowMs := p.nowMs, rsp := none, irqPending := s.irqPending || (s.intNQ && !p.intN) } := by
  change _ = { s with
    intNQ := p.intN, nowMs := p.nowMs, rsp := none, irqPending := s.irqPending || s.fallingEdge p.intN }
  cases hf : s.fallingEdge p.intN <;> simp [State.waits, State.latchIf, State.latchFall, State.sample, hf]

/-- Settles O57: in each of the five cases the edge performs nothing. -/
theorem edgeWithNoOperation : Obligations.EdgeWithNoOperation := by
  intro s p rest he hcase
  have hn : State.performsAt p { s with env := rest } = .nothing := by
    rw [State.performsAt_env, State.performsAt]
    obtain ⟨hd, hp, hl, hg⟩ | ⟨hd, hpl, hv⟩ | ⟨hd, ha⟩ | ⟨hd, ha⟩ | ⟨hd, ha⟩ := hcase
    · have hwait : (s.gie && p.advance) = false := by
        cases hgie : s.gie with
        | false => rfl
        | true => simp [hg hgie]
      simp [hd, hp, hl, hwait]
    · have hline : (s.irqPending && s.lineArmed) = false := by simpa using hpl
      simp [hd, hline, hv]
    · simp [hd, ha]
    · simp [hd, ha]
    · simp [hd, ha]
  rw [step_edge he, clkEdge_nothing hn, State.waits_eq]

/-! ### Reset and INIT -/

/-- Settles O6: both store a fresh record in every channel. -/
theorem resetAndInitRecords : Obligations.ResetAndInitRecords :=
  ⟨fun _ _ _ => ⟨_, rfl, fun c => by simp [Channel.fresh, Config.accelOne]⟩,
    fun _ _ _ => ⟨_, rfl, fun c => by simp [Channel.fresh, Config.accelOne]⟩⟩

/-- Settles O7: each bit is written as a constant, or by INIT not at all. -/
theorem resetAndInitControl : Obligations.ResetAndInitControl :=
  ⟨fun _ _ _ => ⟨_, rfl, rfl, rfl, rfl, rfl, rfl, rfl⟩,
    fun _ _ _ hd => ⟨_, rfl, rfl, rfl, rfl, hd, rfl⟩⟩

end Sys2Proof.Machine
end

section
/-!
SUPPORT. Isolation between channels (R17, R45): two states that agree on everything but one channel's record and the
response go on to agree so, operation by operation, edge by edge and step by step.
-/

namespace Sys2Proof.Machine

section Isolation

variable {c : Fin 8} {s t : State}

/-! ### What agreeing states share -/

/-- Agreeing states differ in the channel store and the response port only. -/
theorem AgreeBut.exists_eq_with (h : AgreeBut c s t) : ∃ chan rsp, t = { s with chan := chan, rsp := rsp } := by
  refine ⟨t.chan, t.rsp, ?_⟩
  obtain ⟨-, ⟨⟨hline, hpend, hphase, hpin, hsnap, hq⟩, hgie⟩, ⟨hnow, henv⟩, hfree⟩ := h
  cases t
  subst_vars
  rfl

/-- What looks at neither the channel store nor the response port is the same in agreeing states. -/
theorem AgreeBut.eq_of_control {α : Type} (h : AgreeBut c s t) (f : State → α)
    (hf : ∀ (u : State) chan rsp, f { u with chan := chan, rsp := rsp } = f u) : f t = f s := by
  obtain ⟨chan, rsp, rfl⟩ := h.exists_eq_with
  exact hf s chan rsp

theorem AgreeBut.startable_eq (h : AgreeBut c s t) : t.startable = s.startable :=
  h.eq_of_control _ fun _ _ _ => rfl

theorem AgreeBut.cmdReady_eq (h : AgreeBut c s t) : t.cmdReady = s.cmdReady :=
  h.eq_of_control _ fun _ _ _ => rfl

theorem AgreeBut.dphase_eq (h : AgreeBut c s t) : t.dphase = s.dphase :=
  h.eq_of_control _ fun _ _ _ => rfl

theorem AgreeBut.nowMs_eq (h : AgreeBut c s t) : t.nowMs = s.nowMs :=
  h.eq_of_control _ fun _ _ _ => rfl

theorem AgreeBut.env_eq (h : AgreeBut c s t) : t.env = s.env :=
  h.eq_of_control _ fun _ _ _ => rfl

theorem AgreeBut.freeCount_eq (h : AgreeBut c s t) : t.freeCount = s.freeCount :=
  h.eq_of_control _ fun _ _ _ => rfl

theorem AgreeBut.trigChannel_eq (h : AgreeBut c s t) : t.trigChannel = s.trigChannel :=
  h.eq_of_control _ fun _ _ _ => rfl

theorem AgreeBut.snap_eq (h : AgreeBut c s t) : t.snap = s.snap :=
  h.eq_of_control _ fun _ _ _ => rfl

/-! ### Operations on the control state -/

/-- The operation neither reads nor writes the channel store, and reads the response port for that port only. -/
def ControlOnly (f : State → State) : Prop :=
  ∀ (u : State) chan rsp, ∃ rsp', f { u with chan := chan, rsp := rsp } = { f u with chan := chan, rsp := rsp' }

/-- Such an operation keeps the records. -/
theorem ControlOnly.chan_eq {f : State → State} (hf : ControlOnly f) (u : State) : (f u).chan = u.chan := by
  obtain ⟨_, hu⟩ := hf u u.chan u.rsp
  have hchan := congrArg State.chan hu
  exact hchan

/-- Such an operation takes agreeing states to agreeing states. -/
theorem AgreeBut.map {f : State → State} (h : AgreeBut c s t) (hf : ControlOnly f) : AgreeBut c (f s) (f t) := by
  have hrec : SameRecordsBut c s t := h.1
  obtain ⟨chan, rsp, rfl⟩ := h.exists_eq_with
  obtain ⟨_, ht⟩ := hf s chan rsp
  rw [ht]
  refine ⟨fun c' hc' => ?_, ⟨⟨rfl, rfl, rfl, rfl, rfl, rfl⟩, rfl⟩, ⟨rfl, rfl⟩, rfl⟩
  rw [hf.chan_eq]
  exact hrec c' hc'

theorem controlOnly_sample (b : Bool) (n : Word32) : ControlOnly (State.sample b n) := fun _ _ _ => ⟨_, rfl⟩
theorem controlOnly_latchFall : ControlOnly State.latchFall := fun _ _ _ => ⟨_, rfl⟩
theorem controlOnly_suppressAll : ControlOnly State.suppressAll := fun _ _ _ => ⟨_, rfl⟩
theorem controlOnly_restoreAll : ControlOnly State.restoreAll := fun _ _ _ => ⟨_, rfl⟩
theorem controlOnly_attach : ControlOnly State.attach := fun _ _ _ => ⟨_, rfl⟩
theorem controlOnly_clearPending : ControlOnly State.clearPending := fun _ _ _ => ⟨_, rfl⟩
theorem controlOnly_entry : ControlOnly State.entry := fun _ _ _ => ⟨_, rfl⟩
theorem controlOnly_qpin (pin : BitVec 4) : ControlOnly (State.qpin pin) := fun _ _ _ => ⟨_, rfl⟩
theorem controlOnly_qport (snap : BitVec 16) : ControlOnly (State.qport snap) := fun _ _ _ => ⟨_, rfl⟩
theorem controlOnly_irqReturn : ControlOnly State.irqReturn := fun _ _ _ => ⟨_, rfl⟩

/-- Taking the next input off the list. -/
theorem controlOnly_setEnv (env : List Input) : ControlOnly fun u => { u with env := env } := fun _ _ _ => ⟨_, rfl⟩

/-- Taking a test-form interrupt off the list; the response of an earlier operation is over. -/
theorem controlOnly_setEnv_clearRsp (env : List Input) : ControlOnly fun u => { u with env := env, rsp := none } :=
  fun _ _ _ => ⟨_, rfl⟩

/-- Agreeing states see the same falling edge, and latch it alike after whatever they do (R138). -/
theorem AgreeBut.latchIf_fallingEdge {u w : State} (h : AgreeBut c s t) (huw : AgreeBut c u w) (b : Bool) :
    AgreeBut c (u.latchIf (s.fallingEdge b)) (w.latchIf (t.fallingEdge b)) := by
  have hfell := h.eq_of_control (State.fallingEdge · b) fun _ _ _ => rfl
  rw [hfell]
  cases s.fallingEdge b with
  | true => exact huw.map controlOnly_latchFall
  | false => exact huw

/-! ### Operations on the records -/

/-- The response is not compared. -/
theorem AgreeBut.respond (h : AgreeBut c s t) (v v' : Word32) : AgreeBut c (s.respond v) (t.respond v') := h

/-- Agreeing states may store different values in record `c`, and must store the same in any other. -/
theorem AgreeBut.setChan {c₀ : Fin 8} {r r' : Channel} (h : AgreeBut c s t) (hr : c₀ ≠ c → r' = r) :
    AgreeBut c (s.setChan c₀ r) (t.setChan c₀ r') := by
  obtain ⟨hrec, hctl, hin, hfree⟩ := h
  refine ⟨fun c' hc' => ?_, hctl, hin, hfree⟩
  obtain rfl | hne := eq_or_ne c' c₀
  · rw [State.setChan_same, State.setChan_same, hr hc']
  · rw [State.setChan_other _ _ _ _ hne, State.setChan_other _ _ _ _ hne, hrec c' hc']

/-- The key idea of isolation: what a record becomes depends on that record alone. -/
theorem AgreeBut.modifyChan (h : AgreeBut c s t) (c₀ : Fin 8) (g : Channel → Channel) :
    AgreeBut c (s.setChan c₀ (g s.chan[c₀])) (t.setChan c₀ (g t.chan[c₀])) :=
  h.setChan fun hne => congrArg g (h.1 c₀ hne)

theorem AgreeBut.freshChannels (h : AgreeBut c s t) (n : Word32) :
    AgreeBut c (s.freshChannels n) (t.freshChannels n) := by
  obtain ⟨-, hctl, hin, hfree⟩ := h
  exact ⟨fun _ _ => rfl, hctl, hin, hfree⟩

/-- The drain reads its own record, the time and the free value drawn (R106). -/
theorem AgreeBut.drain (h : AgreeBut c s t) (v : Nat) (c₀ : Fin 8) : AgreeBut c (s.drain v c₀) (t.drain v c₀) := by
  have hset := h.modifyChan c₀ fun r => drainRecord v r s.nowMs (Config.freePosition s.freeCount)
  obtain ⟨hrec, hctl, hin, hfree⟩ := hset
  refine ⟨?_, hctl, hin, congrArg (· + 1) hfree⟩
  simpa only [SameRecordsBut, State.drain_chan, State.setChan_chan, h.nowMs_eq, h.freeCount_eq] using hrec

/-- READ, of a valid channel or not (R106, R114). -/
theorem AgreeBut.read (h : AgreeBut c s t) (v : Nat) (neutral : Word32) (ch : Int) :
    AgreeBut c (s.read v neutral ch) (t.read v neutral ch) := by
  cases hch : chanOf ch with
  | some c₀ =>
    rw [State.read_some hch, State.read_some hch]
    exact ((h.map controlOnly_suppressAll).drain v c₀).map controlOnly_restoreAll
  | none =>
    rw [State.read_none hch, State.read_none hch]
    exact h.respond _ _

/-- A transition step is one write to the record the trigger pin selects (R70, R80). -/
theorem State.transition_eq_setChan (s : State) (k : BitVec 4) (d : Int) :
    s.transition k d = s.setChan s.trigChannel { s.chan[s.trigChannel] with
      history := k, tickDelta := wrapS32 (sval s.chan[s.trigChannel].tickDelta + d) } := by
  simp [State.transition, State.acc, State.storeHistory, State.setChan]

/-- A transition step with the same key on both sides. -/
theorem AgreeBut.transition (h : AgreeBut c s t) (k : BitVec 4) (d : Int) :
    AgreeBut c (s.transition k d) (t.transition k d) := by
  rw [State.transition_eq_setChan, State.transition_eq_setChan, h.trigChannel_eq]
  exact h.modifyChan _ fun r => { r with history := k, tickDelta := wrapS32 (sval r.tickDelta + d) }

/-- What UPDATE makes of the record it selects, the record's sample being `v` (R70, R80, R93). -/
def Channel.afterSample (v : BitVec 2) (r : Channel) : Channel :=
  { r with
    history := keyOf r.history v
    tickDelta := wrapS32 (sval r.tickDelta + delta Config.skipDelta (keyOf r.history v)) }

/-- UPDATE is one write to the record the trigger pin selects, then steps 7 and 8 (R93). -/
theorem State.update_eq_setChan (s : State) : s.update = (s.setChan s.trigChannel
    (s.chan[s.trigChannel].afterSample (sampleOf s.snap s.trigChannel))).irqReturn := by
  rw [State.update, State.transition_eq_setChan]
  rfl

/-- UPDATE (R93): each side forms the key from its own record and the common snapshot. -/
theorem AgreeBut.update (h : AgreeBut c s t) : AgreeBut c s.update t.update := by
  rw [State.update_eq_setChan, State.update_eq_setChan, h.trigChannel_eq, h.snap_eq]
  exact AgreeBut.map (h.modifyChan _ (Channel.afterSample _)) controlOnly_irqReturn

/-- The four phase steps one after the other (R95). -/
theorem AgreeBut.service (h : AgreeBut c s t) (p : BitVec 4) (w : BitVec 16) :
    AgreeBut c (s.service p w) (t.service p w) :=
  (((h.map controlOnly_entry).map (controlOnly_qpin p)).map (controlOnly_qport w)).update

/-- A reset forgets everything but the inputs to come and the draw counter (R165). -/
theorem AgreeBut.hardwareReset (h : AgreeBut c s t) (n : Word32) :
    AgreeBut c (s.hardwareReset n) (t.hardwareReset n) := by
  have heq : t.hardwareReset n = s.hardwareReset n := h.eq_of_control _ fun _ _ _ => rfl
  rw [heq]
  exact ⟨fun _ _ => rfl, ⟨⟨rfl, rfl, rfl, rfl, rfl, rfl⟩, rfl⟩, ⟨rfl, rfl⟩, rfl⟩

/-! ### Outcomes -/

/-- Both outcomes go on, to agreeing states. -/
def OutcomesAgree (c : Fin 8) (o o' : Host.Outcome State Fault Refusal) : Prop :=
  ∃ s' t', o = .next s' ∧ o' = .next t' ∧ AgreeBut c s' t'

theorem AgreeBut.next (h : AgreeBut c s t) : OutcomesAgree c (.next s) (.next t) := ⟨s, t, rfl, rfl, h⟩

/-- No operation takes channel `c`'s data to another channel or to the control state. -/
theorem AgreeBut.exec (h : AgreeBut c s t) (i : Instr) : OutcomesAgree c (exec i s) (exec i t) := by
  cases i with
  | init _ _ =>
    have hclear := (h.freshChannels s.nowMs).map controlOnly_clearPending
    have hrestored := (hclear.map controlOnly_attach).map controlOnly_restoreAll
    simp only [Machine.exec, execInit, h.nowMs_eq]
    exact (hrestored.respond _ _).next
  | read ch _ => exact (h.read _ _ ch).next
  | write ch v =>
    simp only [Machine.exec, execWrite]
    cases chanOf ch with
    | some c₀ => exact ((h.modifyChan c₀ fun r => { r with position := v }).respond _ _).next
    | none => exact (h.respond _ _).next
  | setacc ch f =>
    simp only [Machine.exec, execSetacc]
    cases chanOf ch with
    | some c₀ => exact ((h.modifyChan c₀ fun r => { r with accel := f }).respond _ _).next
    | none => exact (h.respond _ _).next
  | rsvd4 | rsvd5 | rsvd6 | rsvd7 | rsvd8 | rsvd9 | rsvd10 | rsvd11 | rsvd12 | rsvd13 | rsvd14 | rsvd15 =>
    exact (h.respond _ _).next
  | irq p w =>
    have hfall := h.map controlOnly_latchFall
    simp only [Machine.exec, execIrq, hfall.startable_eq]
    split
    · exact (hfall.service p w).next
    · exact hfall.next
  | tk0 | tk1 | tk2 | tk3 | tk4 | tk5 | tk6 | tk7 | tk8 | tk9 | tk10 | tk11 | tk12 | tk13 | tk14 | tk15 =>
    exact (h.transition _ _).next

/-! ### Edges, steps, runs -/

/-- An edge at which nothing is enabled. -/
theorem AgreeBut.waits (h : AgreeBut c s t) (p : Ports) : AgreeBut c (s.waits p) (t.waits p) :=
  h.latchIf_fallingEdge (h.map (controlOnly_sample _ _)) _

/-- An edge of `clk` does the same thing on both sides: no record decides which operation it performs. -/
theorem AgreeBut.clkEdge (h : AgreeBut c s t) (p : Ports) : OutcomesAgree c (clkEdge p s) (clkEdge p t) := by
  have h0 := h.map (controlOnly_sample p.intN p.nowMs)
  cases hs : s.dphase with
  | idle =>
    by_cases hc : p.cmdValid = true ∧ s.cmdReady = true
    · obtain ⟨u, w, hu, hw, huw⟩ := h0.exec (decodeCmd p.cmdWord)
      rw [clkEdge_command hc.1 hc.2, clkEdge_command hc.1 (h.cmdReady_eq.trans hc.2), hu, hw]
      exact (h.latchIf_fallingEdge huw _).next
    · cases hst : s.startable with
      | false =>
        rw [clkEdge_idle_waits hs hst hc,
          clkEdge_idle_waits (h.dphase_eq.trans hs) (h.startable_eq.trans hst) (by rwa [h.cmdReady_eq])]
        exact (h.waits p).next
      | true =>
        have hst' := h.startable_eq.trans hst
        cases ha : p.advance with
        | false =>
          rw [clkEdge_startable_waits hst ha, clkEdge_startable_waits hst' ha]
          exact (h.waits p).next
        | true =>
          rw [clkEdge_entry hst ha, clkEdge_entry hst' ha]
          exact (h.latchIf_fallingEdge (h0.map controlOnly_entry) _).next
  | qpin =>
    rw [clkEdge_qpin hs, clkEdge_qpin (h.dphase_eq.trans hs)]
    split
    · exact (h.latchIf_fallingEdge (h0.map (controlOnly_qpin _)) _).next
    · exact (h.waits p).next
  | qport =>
    rw [clkEdge_qport hs, clkEdge_qport (h.dphase_eq.trans hs)]
    split
    · exact (h.latchIf_fallingEdge (h0.map (controlOnly_qport _)) _).next
    · exact (h.waits p).next
  | update =>
    rw [clkEdge_update hs, clkEdge_update (h.dphase_eq.trans hs)]
    split
    · exact h0.update.next
    · exact (h.waits p).next

/-- One step, whichever input it takes. -/
theorem AgreeBut.step (h : AgreeBut c s t) : OutcomesAgree c (step s) (step t) := by
  rcases he : s.env with _ | ⟨p | n | w, rest⟩ <;> have he' := h.env_eq.trans he
  · have hquiet : t.quietPorts = s.quietPorts := h.eq_of_control _ fun _ _ _ => rfl
    rw [step_quiet he, step_quiet he', hquiet]
    exact h.clkEdge _
  · rw [step_edge he, step_edge he']
    exact (h.map (controlOnly_setEnv rest)).clkEdge p
  · rw [step_reset he, step_reset he']
    exact ((h.map (controlOnly_setEnv rest)).hardwareReset n).next
  · rw [step_irqOp he, step_irqOp he']
    exact (h.map (controlOnly_setEnv_clearRsp rest)).exec _

/-- Any number of steps. -/
theorem AgreeBut.run (h : AgreeBut c s t) (n : Nat) :
    OutcomesAgree c (Host.Core.run core n s) (Host.Core.run core n t) := by
  induction n generalizing s t with
  | zero => exact h.next
  | succ n ih =>
    obtain ⟨s', t', hs, ht, h'⟩ := h.step
    rw [run_next hs, run_next ht]
    exact ih h'

end Isolation

/-- Settles O50, by induction on the number of steps (`AgreeBut.run`). -/
theorem channelsAreIsolated : Obligations.ChannelsAreIsolated := fun _ n _ _ h => h.run n

end Sys2Proof.Machine
end

section
/-!
SUPPORT. Encodings (R50 to R60): the decoder on assembled words, the round trips between operations and words, the
signed channel field, and how the decoded operation runs: its response (R54) and what an interrupt operation uses of its
operands (R94).
-/

namespace Sys2Proof

/-! ### The decoder and the encoder, field by field -/

/-- An assembled command word decodes to what its `op` names in the table of R51. -/
theorem decodeCmd_append (op : BitVec 4) (ch : BitVec 8) (data : Word32) :
    decodeCmd (op ++ ch ++ data) = commandOf op ch.toInt data := by
  rw [decodeCmd, cmdOp_append, cmdCh_append, cmdData_append]

/-- Settles O1: each row is `decodeCmd_append` at that value of `op`. -/
theorem opcodeTableDecodes : Obligations.OpcodeTableDecodes := fun ch data =>
  have row := fun op => decodeCmd_append op ch data
  ⟨row 0, row 1, row 2, row 3, row 4, row 5, row 6, row 7, row 8, row 9,
    row 10, row 11, row 12, row 13, row 14, row 15⟩

/-- A command word encoded from fields that fit decodes to what its `op` names (R51, R52). -/
theorem decodeCmd_encodeCmd (op : BitVec 4) {ch : Int} (hch : chanFieldFits ch = true) (data : Word32) :
    decodeCmd (encodeCmd op ch data) = commandOf op ch data := by
  rw [encodeCmd, decodeCmd_append, toInt_chanField hch]

/-- An assembled `IRQOP` value decodes to its two fields (R60). -/
theorem decodeIrqOp_append (pin : BitVec 4) (snap : BitVec 16) : decodeIrqOp (pin ++ snap) = .irq pin snap := by
  rw [decodeIrqOp, BitVec.extractLsb'_append_eq_left, BitVec.extractLsb'_append_eq_right]

/-- An `IRQOP` value is its two fields (R60). -/
theorem encode_decodeIrqOp (w : BitVec 20) : encode (decodeIrqOp w) = .irqop w := by
  have fields : w.extractLsb' 16 4 ++ w.extractLsb' 0 16 = w :=
    (BitVec.extractLsb'_append_extractLsb'_eq_extractLsb' (by rfl)).trans BitVec.extractLsb'_eq_self
  rw [decodeIrqOp, encode, fields]

/-- The encoder puts a command back under the `op` the table of R51 gives it. -/
theorem encode_commandOf (op : BitVec 4) (ch : Int) (data : Word32) :
    encode (commandOf op ch data) = .cmd (encodeCmd op ch data) := by
  obtain ⟨op, hop⟩ := op
  interval_cases op <;> rfl

/-- A command is well-formed when its channel index fits (R52), whatever its `op`. -/
theorem wellFormed_commandOf (op : BitVec 4) (ch : Int) (data : Word32) :
    (commandOf op ch data).wellFormed = chanFieldFits ch := by
  unfold commandOf
  split <;> rfl

/-- A command word is its three fields (R50, R51). -/
theorem encode_decodeCmd (w : BitVec 44) : encode (decodeCmd w) = .cmd w := by
  rw [decodeCmd, encode_commandOf, cmdCh, encodeCmd_toInt, cmdWord_of_fields]

/-- What a command word decodes to has an encoding (R52). -/
theorem wellFormed_decodeCmd (w : BitVec 44) : (decodeCmd w).wellFormed = true :=
  (wellFormed_commandOf _ _ _).trans (chanFieldFits_toInt _)

/-- A key is that of the row it decodes to (R57). -/
theorem encode_decodeKey (k : BitVec 4) : encode (decodeKey k) = .key4 k := by
  obtain ⟨k, hk⟩ := k
  interval_cases k <;> rfl

/-- A key has no operand that could fail to fit. -/
theorem wellFormed_decodeKey (k : BitVec 4) : (decodeKey k).wellFormed = true := by
  unfold decodeKey
  split <;> rfl

/-- A command word decodes to a READ exactly when its `op` is 1 (R51). -/
theorem decodeCmd_eq_read_iff {w : BitVec 44} {ch : Int} {data : Word32} :
    decodeCmd w = .read ch data ↔ cmdOp w = 1#4 ∧ cmdCh w = ch ∧ cmdData w = data := by
  rw [decodeCmd]
  generalize cmdOp w = op
  obtain ⟨op, hop⟩ := op
  interval_cases op <;> simp [commandOf]

/-! ### The round trips -/

/-- Settles O3: a command by its fields, an interrupt operation by its two operands, a key by the table of R57. -/
theorem decodeOfEncode : Obligations.DecodeOfEncode := by
  intro i hwf
  cases i with
  | init _ data | read _ data | write _ data | setacc _ data | rsvd4 _ data | rsvd5 _ data | rsvd6 _ data
  | rsvd7 _ data | rsvd8 _ data | rsvd9 _ data | rsvd10 _ data | rsvd11 _ data | rsvd12 _ data | rsvd13 _ data
  | rsvd14 _ data | rsvd15 _ data => exact decodeCmd_encodeCmd _ hwf data
  | irq pin snap => exact decodeIrqOp_append pin snap
  | tk0 | tk1 | tk2 | tk3 | tk4 | tk5 | tk6 | tk7 | tk8 | tk9 | tk10 | tk11 | tk12 | tk13 | tk14 | tk15 => rfl

/-- Settles O4: format by format. -/
theorem encodeOfDecode : Obligations.EncodeOfDecode := by
  rintro (w | w | k)
  · exact ⟨wellFormed_decodeCmd w, encode_decodeCmd w⟩
  · exact ⟨rfl, encode_decodeIrqOp w⟩
  · exact ⟨wellFormed_decodeKey k, encode_decodeKey k⟩

/-- Settles O5, by evaluating the decoder on each word. -/
theorem writtenWordsDecode : Obligations.WrittenWordsDecode := by
  unfold Obligations.WrittenWordsDecode
  decide

/-! ### The channel field -/

/-- The byte that holds a channel number reads back as it (R52). -/
theorem toInt_ofNat_channel (c : Fin 8) : (BitVec.ofNat 8 c.val).toInt = c.val := by
  revert c
  decide

/-- The channel index is valid exactly when bits 39..35 of the word are zero (R52). -/
theorem cmdCh_valid_iff (w : BitVec 44) : (0 ≤ cmdCh w ∧ cmdCh w < 8) ↔ w.extractLsb' 35 5 = 0#5 := by
  rw [cmdCh, BitVec.toInt_eq_toNat_cond, ← BitVec.toNat_inj]
  simp only [BitVec.extractLsb'_toNat, Nat.shiftRight_eq_div_pow, BitVec.toNat_ofNat]
  split <;> omega

end Sys2Proof

namespace Sys2Proof.Machine

/-- Settles O2: the range of a signed byte, and `cmdCh_valid_iff` for the record reached. -/
theorem channelFieldIsSigned : Obligations.ChannelFieldIsSigned := by
  refine ⟨fun w => ?_, fun _ _ _ _ _ => rfl⟩
  have hfits := chanFieldFits_toInt (w.extractLsb' 32 8)
  rw [chanFieldFits, Bool.and_eq_true, decide_eq_true_eq, decide_eq_true_eq] at hfits
  obtain ⟨hlow, hhigh⟩ := hfits
  exact ⟨rfl, hlow, hhigh, cmdCh_valid_iff w, chanOf_isSome.trans (cmdCh_valid_iff w), fun _ => chanOf_some⟩

/-! ### The operation a step runs -/

/-- An edge with an offered command and `cmd_ready` runs the decoded command, then latches the edge (R148, R149). -/
theorem step_command {s : State} {p : Ports} {rest : List Input} (he : s.env = .edge p :: rest)
    (hv : p.cmdValid = true) (hr : s.cmdReady = true) :
    step s = andThen (exec (decodeCmd p.cmdWord) ({ s with env := rest }.sample p.intN p.nowMs))
      (State.latchIf (s.fallingEdge p.intN)) :=
  (step_edge he).trans (clkEdge_command (s := { s with env := rest }) hv hr)

/-- An edge in `D_UPDATE` that takes its step runs the key formed, then steps 7 and 8 (R93). -/
theorem step_update {s : State} {p : Ports} {rest : List Input} (he : s.env = .edge p :: rest)
    (hd : s.dphase = .update) (ha : p.advance = true) :
    step s = andThen (exec (decodeKey s.trigKey) ({ s with env := rest }.sample p.intN p.nowMs)) State.irqReturn := by
  rw [step_edge he, clkEdge_update (s := { s with env := rest }) hd, if_pos ha, exec_decodeKey]
  rfl

/-- Settles O37, by what the step does with each of the three inputs. -/
theorem stepRunsTheDecodedOperation : Obligations.StepRunsTheDecodedOperation :=
  ⟨fun _ _ _ he hv hr => step_command he hv hr, fun _ _ _ he hd ha => step_update he hd ha,
    fun _ _ _ he => step_irqOp he⟩

/-! ### Responses -/

/-- Every host command but a READ of a valid channel responds 0 (R54). -/
theorem exec_rsp_zero {i : Instr} {s t : State} (hi : i.format = .cmd)
    (hread : ∀ ch data, i = .read ch data → chanOf ch = none) (h : exec i s = .next t) : t.rsp = some 0#32 := by
  obtain ⟨_, _, rfl, rfl⟩ | ⟨_, _, _, rfl, hc, rfl⟩ | ⟨_, _, _, rfl, _, rfl⟩ | ⟨_, _, _, rfl, _, rfl⟩ |
    ⟨_, rfl⟩ | ⟨_, _, rfl, _⟩ | ⟨_, _, rfl, _⟩ | ⟨k, rfl, _⟩ := exec_inv h
  · rfl
  · rw [hread _ _ rfl] at hc
    exact nomatch hc
  · rfl
  · rfl
  · rfl
  · exact nomatch hi
  · exact nomatch hi
  · simp at hi

/-- A READ of a valid channel responds with the position it leaves (R54, R106). -/
theorem exec_read_rsp {data : Word32} {c : Fin 8} {s t : State} (h : exec (.read c.val data) s = .next t) :
    t.rsp = some t.chan[c].position := by
  cases h
  exact State.read_rsp _ _ c s

/-- An edge that accepts no command has no response (R54). -/
theorem clkEdge_rsp_none {p : Ports} {s t : State} (h : clkEdge p s = .next t)
    (hc : ¬ (p.cmdValid = true ∧ s.cmdReady = true)) : t.rsp = none := by
  obtain ⟨-, -, rfl⟩ | ⟨hv, hr, -⟩ | ⟨-, -, rfl⟩ | ⟨-, -, rfl⟩ | ⟨-, -, rfl⟩ | ⟨-, -, rfl⟩ := clkEdge_inv h
  · simp
  · exact absurd ⟨hv, hr⟩ hc
  · simp
  · simp
  · rfl
  · simp

/-- Settles O39: the response is the decoded operation's, which latching the edge leaves. -/
theorem oneResponsePerCommand : Obligations.OneResponsePerCommand := by
  refine ⟨fun s p rest hv hr => ?_, fun s p rest hc => ?_⟩
  · obtain ⟨u, hu⟩ := exists_exec_next (decodeCmd p.cmdWord) ({ s with env := rest }.sample p.intN p.nowMs)
    refine ⟨u.latchIf (s.fallingEdge p.intN), ?_, fun c hop hch => ?_, fun hinvalid => ?_⟩
    · rw [step_command (s := { s with env := .edge p :: rest }) rfl hv hr, hu]
      rfl
    · have hval : cmdCh p.cmdWord = c.val := by rw [cmdCh, hch, toInt_ofNat_channel]
      rw [decodeCmd_eq_read_iff.2 ⟨hop, hval, rfl⟩] at hu
      simpa using exec_read_rsp hu
    · rw [State.latchIf_rsp]
      refine exec_rsp_zero (format_decodeCmd _) (fun ch data hread => ?_) hu
      obtain ⟨hop, rfl, -⟩ := decodeCmd_eq_read_iff.1 hread
      have hhigh := hinvalid.resolve_left fun hne => hne hop
      exact chanOf_invalid (by have := mt (cmdCh_valid_iff p.cmdWord).1 hhigh; omega)
  · obtain ⟨t, h⟩ := exists_clkEdge_next p { s with env := rest }
    exact ⟨t, h, clkEdge_rsp_none h hc⟩

/-! ### What an interrupt operation uses of its operands -/

/-- Two services whose pins select one channel and whose snapshots agree on its pair leave the same records (R94). -/
theorem State.service_chan_congr (s : State) {p p' : BitVec 4} {w w' : BitVec 16} (hp : pinChannel p' = pinChannel p)
    (hw : sampleOf w' (pinChannel p) = sampleOf w (pinChannel p)) (c : Fin 8) :
    (s.service p' w').chan[c] = (s.service p w).chan[c] := by
  rw [State.service_chan, State.service_chan, hp]
  split
  · next hc => rw [hc, hw]
  · rfl

/-- Settles O33: whether the operation starts depends on the state alone, and the service by `service_chan_congr`. -/
theorem irqUsesOnePairOnly : Obligations.IrqUsesOnePairOnly := by
  intro s p p' w w' hpin hpair
  have hp : pinChannel p' = pinChannel p := Fin.ext hpin.symm
  have hw : sampleOf w' (pinChannel p) = sampleOf w (pinChannel p) :=
    BitVec.eq_of_toNat_eq (by rw [sampleOf_toNat, sampleOf_toNat]; exact hpair.symm)
  simp only [exec, execIrq]
  split
  · exact ⟨_, _, rfl, rfl, s.latchFall.service_chan_congr hp hw⟩
  · exact ⟨_, _, rfl, rfl, fun _ => rfl⟩

end Sys2Proof.Machine
end

section
/-!
SUPPORT. The Channel Decoder (40_channel_decoder.md): what the operation of a key does (R70 to R76), and the net ticks
of a sequence of samples (S4).
-/

namespace Sys2Proof.Machine

/-! ### The transition keys -/

/-- A transition step with delta `d` is R70 and R80 with their frame. -/
theorem transitionEffect_of_exec {i : Instr} {s : State} {k : BitVec 4} {d : Int}
    (h : exec i s = .next (s.transition k d)) : TransitionEffect i k d s :=
  ⟨_, h, s.transition_record k d, s.transition_other k d, ⟨⟨rfl, rfl, rfl, rfl, rfl, rfl⟩, rfl⟩, ⟨rfl, rfl⟩, rfl, rfl⟩

/-- The operation of a key adds the key's delta (R71). -/
theorem transitionEffect_decodeKey (k : BitVec 4) (s : State) :
    TransitionEffect (decodeKey k) k (delta Config.skipDelta k) s :=
  transitionEffect_of_exec (exec_decodeKey k s)

/-- Adding no ticks leaves the accumulator as it was. -/
theorem TransitionEffect.keepsTicks {i : Instr} {k : BitVec 4} {s : State} (h : TransitionEffect i k 0 s) :
    TransitionKeepsTicks i k s := by
  obtain ⟨t, hexec, hrec, hframe⟩ := h
  refine ⟨t, hexec, ?_, hframe⟩
  simpa using hrec

/-- The operation of a key whose delta is 0 keeps the ticks. -/
theorem transitionKeepsTicks_decodeKey {k : BitVec 4} (hk : delta Config.skipDelta k = 0) (s : State) :
    TransitionKeepsTicks (decodeKey k) k s :=
  (hk ▸ transitionEffect_decodeKey k s).keepsTicks

/-- `SKIP_DELTA` is the delta of the two SKIP keys and of no other (R9, R75, R76). -/
theorem delta_eq_ite (skipDelta : Int) (k : BitVec 4) :
    delta skipDelta k = if k = 0b0011#4 ∨ k = 0b1100#4 then skipDelta else deltaList.getD k.toNat 0 := by
  obtain ⟨k, hk⟩ := k
  interval_cases k <;> rfl

/-- Settles O28: the operation of a key adds its delta, which the list of R71 gives. -/
theorem deltaListGovernsEveryKey : Obligations.DeltaListGovernsEveryKey := by
  refine ⟨fun s k => ?_, delta_eq_ite⟩
  have hlist : delta Config.skipDelta k = deltaList.getD k.toNat 0 := delta_eq_list k
  exact hlist ▸ transitionEffect_decodeKey k s

/-- Settles O23: the four keys have delta 0. -/
theorem holdKeysKeepTicks : Obligations.HoldKeysKeepTicks := fun s =>
  ⟨transitionKeepsTicks_decodeKey (k := 0) rfl s, transitionKeepsTicks_decodeKey (k := 5) rfl s,
    transitionKeepsTicks_decodeKey (k := 10) rfl s, transitionKeepsTicks_decodeKey (k := 15) rfl s⟩

/-- Settles O24: the four keys have delta 1. -/
theorem incKeysCountUp : Obligations.IncKeysCountUp := fun s =>
  ⟨transitionEffect_decodeKey 1 s, transitionEffect_decodeKey 7 s, transitionEffect_decodeKey 14 s,
    transitionEffect_decodeKey 8 s⟩

/-- Settles O25: the four keys have delta -1. -/
theorem decKeysCountDown : Obligations.DecKeysCountDown := fun s =>
  ⟨transitionEffect_decodeKey 2 s, transitionEffect_decodeKey 11 s, transitionEffect_decodeKey 13 s,
    transitionEffect_decodeKey 4 s⟩

/-- Settles O26: the delta of both keys is `SKIP_DELTA`, which is 0 on this hardware. -/
theorem skipKeysKeepTicks : Obligations.SkipKeysKeepTicks := fun s =>
  ⟨transitionKeepsTicks_decodeKey (k := 3) rfl s, transitionKeepsTicks_decodeKey (k := 12) rfl s⟩

/-- Settles O27: both keys have delta 0. -/
theorem skipxKeysKeepTicks : Obligations.SkipxKeysKeepTicks := fun s =>
  ⟨transitionKeepsTicks_decodeKey (k := 6) rfl s, transitionKeepsTicks_decodeKey (k := 9) rfl s⟩

/-! ### Sequences of samples -/

/-- The ticks of two sequences in a row: the second starts from the history the first leaves. -/
theorem sampleTicks_append (h : BitVec 4) (vs ws : List (BitVec 2)) :
    sampleTicks h (vs ++ ws) = sampleTicks h vs + sampleTicks (vs.foldl keyOf h) ws := by
  induction vs generalizing h with
  | nil => simp [sampleTicks]
  | cons v vs ih => simp [sampleTicks, ih, add_assoc]

/-- A turn that ends on the sample it began from, and counts `d` from it, counts `d` each time it is repeated. -/
theorem sampleTicks_repeated_turn {v : BitVec 2} {vs : List (BitVec 2)} {d : Int}
    (hturn : ∀ h : BitVec 4, h.extractLsb' 0 2 = v → sampleTicks h (vs ++ [v]) = d)
    (n : Nat) (h : BitVec 4) (hv : h.extractLsb' 0 2 = v) :
    sampleTicks h (List.replicate n (vs ++ [v])).flatten = d * n := by
  induction n generalizing h with
  | zero => simp [sampleTicks]
  | succ n ih =>
    have hback : ((vs ++ [v]).foldl keyOf h).extractLsb' 0 2 = v := by
      rw [List.foldl_append]
      exact keyOf_low _ v
    rw [List.replicate_succ, List.flatten_cons, sampleTicks_append, hturn h hv, ih _ hback]
    push_cast
    ring

/-- Settles O30: each turn ends on the sample 00 it began from, and one turn is finite to evaluate. -/
theorem fullCycleCountsFour : Obligations.FullCycleCountsFour := by
  intro h n
  have hlow : (h ++ 0b00#2).extractLsb' 0 2 = 0b00#2 := BitVec.extractLsb'_append_eq_right
  exact ⟨sampleTicks_repeated_turn (vs := [0b01#2, 0b11#2, 0b10#2]) (by decide) n _ hlow,
    sampleTicks_repeated_turn (vs := [0b10#2, 0b11#2, 0b01#2]) (by decide) n _ hlow⟩

end Sys2Proof.Machine
end

section
/-!
SUPPORT. The tick accumulator (41_tick_accumulator.md): what one step does to it (R80, R107, R26), its sum over any run
between two drains (R82) and over a list of test-form interrupts, its wrap (R81), and a READ after a WRITE (R83).
-/

namespace Sys2Proof.Machine

/-! ### Sums of ticks modulo 2^32 -/

/-- Adding to the accumulator adds the wrapped summand to its word (R80). -/
theorem wrapS32_sval_add (v : Word32) (d : ℤ) : wrapS32 (sval v + d) = v + wrapS32 d := by
  rw [wrapS32, BitVec.ofInt_add, BitVec.ofInt_toInt]

/-- Adding no ticks leaves the word. -/
theorem wrapS32_sval_add_zero (v : Word32) : wrapS32 (sval v + 0) = v := by
  rw [add_zero, wrapS32, BitVec.ofInt_toInt]

/-- Two additions to the accumulator wrap once, of the sum (R81). -/
theorem wrapS32_sval_wrapS32_add (v : Word32) (d e : ℤ) :
    wrapS32 (sval (wrapS32 (sval v + d)) + e) = wrapS32 (sval v + (d + e)) := by
  rw [wrapS32_sval_add, wrapS32_sval_add, wrapS32_sval_add, BitVec.add_assoc, ← BitVec.ofInt_add]

/-- The delta of the key formed is the entry of R71's list at the key formed by shifting (R56, R58). -/
theorem deltaList_keyByShift (history : BitVec 4) (snap : BitVec 16) (c : Fin 8) :
    deltaList.getD (keyByShift history snap c.val) 0 = delta Config.skipDelta (keyOf history (sampleOf snap c)) := by
  rw [delta_eq_list, keyOf_toNat, sampleOf_toNat]
  rfl

/-! ### What an interrupt operation does to each record -/

/-- The accumulator of a record that takes a sample if it is the one selected (R80). -/
theorem Channel.tickDelta_ite_afterSample (sel : Prop) [Decidable sel] (v : BitVec 2) (r : Channel) :
    (if sel then r.afterSample v else r).tickDelta =
      wrapS32 (sval r.tickDelta + if sel then delta Config.skipDelta (keyOf r.history v) else 0) := by
  split
  · rfl
  · rw [wrapS32_sval_add_zero]

/-- Any record after UPDATE (R93). -/
theorem State.update_chan (s : State) (c : Fin 8) : s.update.chan[c] =
    if s.trigChannel = c then s.chan[c].afterSample (sampleOf s.snap c) else s.chan[c] := by
  rw [State.update_eq_setChan, State.irqReturn_chan]
  split
  · next h => subst h; exact State.setChan_same _ _ _
  · next h => exact State.setChan_other _ _ _ _ (Ne.symm h)

/-- Any record after the four phase steps: `update_chan` with both answers in (R95). -/
theorem State.service_chan_afterSample (s : State) (p : BitVec 4) (w : BitVec 16) (c : Fin 8) :
    (s.service p w).chan[c] = if pinChannel p = c then s.chan[c].afterSample (sampleOf w c) else s.chan[c] :=
  State.update_chan _ c

/-- The test form runs whole exactly where the block is idle with the line armed and interrupts enabled, and else only
latches the edge (R139, log entry 11). -/
theorem exec_irq_eq (p : BitVec 4) (w : BitVec 16) (s : State) : exec (.irq p w) s =
    .next (if s.dphase = .idle ∧ s.lineArmed = true ∧ s.gie = true then s.latchFall.service p w else s.latchFall) := by
  have hstart : s.latchFall.startable = true ↔ s.dphase = .idle ∧ s.lineArmed = true ∧ s.gie = true := by
    simp [State.startable_iff]
  simp only [exec, execIrq, hstart]
  split <;> rfl

/-- Any record after the test form (R95). -/
theorem exec_irq_chan {p : BitVec 4} {w : BitVec 16} {s t : State} (h : exec (.irq p w) s = .next t) (c : Fin 8) :
    t.chan[c] = if pinChannel p = c ∧ s.dphase = .idle ∧ s.lineArmed = true ∧ s.gie = true then
      s.chan[c].afterSample (sampleOf w c) else s.chan[c] := by
  rw [exec_irq_eq] at h
  cases h
  by_cases hs : s.dphase = .idle ∧ s.lineArmed = true ∧ s.gie = true
  · rw [if_pos hs, State.service_chan_afterSample]
    simp only [hs, and_true]
    rfl
  · rw [if_neg hs, if_neg fun hc => hs hc.2]
    rfl

/-! ### What a step does to the accumulator -/

/-- Every step has a next state (R150). -/
theorem exists_step_next (s : State) : ∃ t, step s = .next t := by
  rcases he : s.env with _ | ⟨p | n | w, rest⟩
  · rw [step_quiet he]
    exact exists_clkEdge_next _ _
  · rw [step_edge he]
    exact exists_clkEdge_next _ _
  · exact ⟨_, step_reset he⟩
  · rw [step_irqOp he]
    exact exists_exec_next _ _

/-- READ of the channel and INIT are the operations that empty its accumulator (R26, R107). -/
theorem exec_drains {i : Instr} {s t : State} {c : Fin 8} (h : exec i s = .next t)
    (hd : columnOf i = .init ∨ (columnOf i = .read ∧ namedChannel i s = some c)) : t.chan[c].tickDelta = 0#32 := by
  cases i with
  | init _ _ =>
    cases h
    simp [Channel.fresh]
  | read ch _ =>
    obtain hcol | ⟨-, hch⟩ := hd
    · exact nomatch hcol
    · cases h
      rw [chanOf_some hch, State.read_chan_self]
      rfl
  | _ =>
    obtain hcol | ⟨hcol, -⟩ := hd <;> exact nomatch hcol

/-- What an edge performs that has a column in R16's table: an accepted command or UPDATE. -/
theorem clkEdge_column {p : Ports} {s t : State} (h : clkEdge p s = .next t) :
    (s.performsAt p).column = .none ∨
    (s.performsAt p = .command (decodeCmd p.cmdWord) ∧
      ∃ u, exec (decodeCmd p.cmdWord) (s.sample p.intN p.nowMs) = .next u ∧ t.chan = u.chan) ∨
    (s.performsAt p = .update ∧ t = (s.sample p.intN p.nowMs).update) := by
  obtain ⟨hp, -⟩ | ⟨hp, -⟩ | ⟨hp, -, u, hu, rfl⟩ | ⟨hp, -⟩ | ⟨hp, -⟩ | hupd := clkEdge_performs h
  · exact .inl (congrArg Performed.column hp)
  · exact .inl (congrArg Performed.column hp)
  · exact .inr (.inl ⟨hp, u, hu, State.latchIf_chan _ _⟩)
  · exact .inl (congrArg Performed.column hp)
  · exact .inl (congrArg Performed.column hp)
  · exact .inr (.inr hupd)

/-- A step that drains the channel leaves its accumulator 0 (R82): the accepted command is a READ of it or an INIT, or the
step is a reset. -/
theorem step_drains {s t : State} {c : Fin 8} (h : step s = .next t) (hd : s.drains c) : t.chan[c].tickDelta = 0#32 := by
  unfold State.drains at hd
  obtain ⟨p, ho, hedge⟩ | ⟨n, -, rfl⟩ | ⟨w, ho, -⟩ := step_performs h
  · obtain hcol | ⟨hp, u, hu, hchan⟩ | ⟨hp, -⟩ := clkEdge_column hedge
    · simp [show s.performs.column = .none from ho ▸ hcol] at hd
    · rw [ho.trans hp] at hd
      rw [hchan]
      refine exec_drains hu ?_
      rwa [namedChannel_sample, namedChannel_env]
    · simp [ho.trans hp, Performed.column] at hd
  · simp [Channel.fresh]
  · simp [ho, Performed.column] at hd

/-- An operation outside the interrupt's column that does not drain the record keeps its ticks (R16). -/
theorem RecordEffect.tickDelta_eq {named : Prop} {r r' : Channel} {col : Column} (h : RecordEffect named r col r')
    (hinit : col ≠ .init) (hread : ¬ (col = .read ∧ named)) (hirq : col ≠ .irq) : r'.tickDelta = r.tickDelta := by
  cases h with
  | keep | write | setacc => rfl
  | init => exact absurd rfl hinit
  | irq => exact absurd rfl hirq
  | read hn => exact absurd ⟨rfl, hn⟩ hread

/-- A host command is not in the interrupt's column. -/
theorem columnOf_ne_irq {i : Instr} (hi : i.format = .cmd) : columnOf i ≠ .irq := by
  cases i <;> cases hi <;> exact nofun

/-- Outside the interrupt's column a step counts no ticks. -/
theorem State.ticksAt_eq_zero {s : State} (h : s.performs.column ≠ .irq) (c : Fin 8) : s.ticksAt c = 0 := by
  unfold State.ticksAt
  cases ho : s.performs with
  | update | irqOp w => simp [ho, Performed.column] at h
  | _ => rfl

/-- The ticks of a step that performs UPDATE. -/
theorem State.ticksAt_update {s : State} (h : s.performs = .update) (c : Fin 8) : s.ticksAt c =
    if s.trigChannel = c then delta Config.skipDelta (keyOf s.chan[c].history (sampleOf s.snap c)) else 0 := by
  rw [← deltaList_keyByShift]
  simp only [State.ticksAt, h]

/-- The ticks of a step that takes a test-form interrupt. -/
theorem State.ticksAt_irqOp {s : State} {w : BitVec 20} (h : s.performs = .irqOp w) (c : Fin 8) : s.ticksAt c =
    if pinChannel (w.extractLsb' 16 4) = c ∧ s.dphase = .idle ∧ s.lineArmed = true ∧ s.gie = true then
      delta Config.skipDelta (keyOf s.chan[c].history (sampleOf (w.extractLsb' 0 16) c)) else 0 := by
  rw [← deltaList_keyByShift]
  simp only [State.ticksAt, h]

/-- A step that does not drain the channel adds the ticks it counts for it (R80, R82). -/
theorem step_ticks {s t : State} {c : Fin 8} (h : step s = .next t) (hd : ¬ s.drains c) :
    t.chan[c].tickDelta = wrapS32 (sval s.chan[c].tickDelta + s.ticksAt c) := by
  by_cases hcol : s.performs.column = .irq
  · obtain ⟨p, ho, hedge⟩ | ⟨n, ho, -⟩ | ⟨w, ho, hexec⟩ := step_performs h
    · obtain hnone | ⟨hp, -⟩ | ⟨hp, rfl⟩ := clkEdge_column hedge
      · exact nomatch (ho ▸ hcol).symm.trans hnone
      · rw [ho.trans hp] at hcol
        exact absurd hcol (columnOf_ne_irq (format_decodeCmd _))
      · rw [State.ticksAt_update (ho.trans hp), State.update_chan]
        exact Channel.tickDelta_ite_afterSample _ _ _
    · simp [ho, Performed.column] at hcol
    · rw [State.ticksAt_irqOp ho, exec_irq_chan hexec]
      exact Channel.tickDelta_ite_afterSample _ _ _
  · rw [State.ticksAt_eq_zero hcol, wrapS32_sval_add_zero]
    exact (step_recordEffect h c).tickDelta_eq (fun hi => hd (.inl hi)) (fun hr => hd (.inr hr)) hcol

/-! ### Sums over runs -/

/-- The ticks of a run from those of its first step. -/
theorem runTicks_next {s t : State} (h : step s = .next t) (c : Fin 8) (n : Nat) :
    runTicks c (n + 1) s = s.ticksAt c + runTicks c n t := by
  rw [runTicks, h]

/-- Settles O53: a draining step by `step_drains`; any other step adds its ticks (`step_ticks`), by induction on the
number of steps. -/
theorem ticksSumBetweenDrains : Obligations.TicksSumBetweenDrains := by
  refine ⟨fun s c hd => ?_, fun n => ?_⟩
  · obtain ⟨t, h⟩ := exists_step_next s
    exact ⟨t, h, step_drains h hd⟩
  · induction n with
    | zero => exact fun s c _ => ⟨s, rfl, (wrapS32_sval_add_zero _).symm⟩
    | succ n ih =>
      intro s c hnone
      obtain ⟨t, h⟩ := exists_step_next s
      have hfirst : ¬ s.drains c := hnone 0 n.succ_pos s rfl
      have hrest : ∀ k < n, ∀ u, Host.Core.run core k t = .next u → ¬ u.drains c := fun k hk u hu =>
        hnone (k + 1) (Nat.succ_lt_succ hk) u ((run_next h).trans hu)
      obtain ⟨u, hu, hsum⟩ := ih t c hrest
      refine ⟨u, (run_next h).trans hu, ?_⟩
      rw [hsum, step_ticks h hfirst, wrapS32_sval_wrapS32_add, runTicks_next h]

/-- A test-form interrupt on an idle, armed, enabled block leaves it so; the channel its pin selects takes its pair of the
snapshot as a sample, and every other record stays (R95). -/
theorem step_irqOp_ready {s : State} {p : BitVec 4} {w : BitVec 16} {rest : List Input}
    (hd : s.dphase = .idle) (hl : s.lineArmed = true) (hg : s.gie = true) (he : s.env = .irqOp (p ++ w) :: rest) :
    ∃ t, step s = .next t ∧ t.dphase = .idle ∧ t.lineArmed = true ∧ t.gie = true ∧ t.env = rest ∧
      ∀ c : Fin 8, t.chan[c] = if pinChannel p = c then s.chan[c].afterSample (sampleOf w c) else s.chan[c] := by
  refine ⟨State.service p w (State.latchFall { s with env := rest, rsp := none }), ?_, rfl, rfl, rfl, rfl,
    fun c => State.service_chan_afterSample _ p w c⟩
  rw [step_irqOp he, decodeIrqOp_append, exec_irq_eq, if_pos ⟨hd, hl, hg⟩]

/-- The net ticks of a list of interrupt operations from those of the first: the rest starts from the history it leaves. -/
theorem netTicks_cons (c : Fin 8) (r : Channel) (p : BitVec 4) (w : BitVec 16) (ops : List (BitVec 4 × BitVec 16)) :
    netTicks c r.history ((p, w) :: ops) =
      (if pinChannel p = c then delta Config.skipDelta (keyOf r.history (sampleOf w c)) else 0) +
        netTicks c (if pinChannel p = c then r.afterSample (sampleOf w c) else r).history ops := by
  rw [netTicks]
  split
  · rfl
  · rw [zero_add]

/-- Settles O59, by induction on the list: each interrupt leaves the block ready for the next. -/
theorem ticksSumOverTestInterrupts : Obligations.TicksSumOverTestInterrupts := by
  intro ops
  induction ops with
  | nil => exact fun s rest _ _ _ he => ⟨s, rfl, he, fun c => ⟨(wrapS32_sval_add_zero _).symm, rfl⟩⟩
  | cons op ops ih =>
    intro s rest hd hl hg he
    obtain ⟨t, h, hd', hl', hg', he', hchan⟩ := step_irqOp_ready hd hl hg he
    obtain ⟨u, hu, hrest, hsum⟩ := ih t rest hd' hl' hg' he'
    refine ⟨u, (run_next h).trans hu, hrest, fun c => ?_⟩
    obtain ⟨hticks, hpos⟩ := hsum c
    constructor
    · rw [hticks, hchan, Channel.tickDelta_ite_afterSample, wrapS32_sval_wrapS32_add, netTicks_cons]
    · rw [hpos, hchan]
      split <;> rfl

/-! ### The ends of the accumulator, and READ after WRITE -/

/-- The accumulator of the selected channel after the operation of a key (R80). -/
theorem exec_decodeKey_tickDelta (k : BitVec 4) (s : State) : ∃ t, exec (decodeKey k) s = .next t ∧
    t.chan[s.trigChannel].tickDelta = wrapS32 (sval s.chan[s.trigChannel].tickDelta + delta Config.skipDelta k) := by
  obtain ⟨t, h, hrec, -⟩ := transitionEffect_decodeKey k s
  exact ⟨t, h, congrArg Channel.tickDelta hrec⟩

/-- Settles O29: the keys 1 and 2 add 1 and -1, which wrap at the two ends. -/
theorem accumulatorWraps : Obligations.AccumulatorWraps := by
  refine ⟨fun s hs => ?_, fun s hs => ?_⟩
  · obtain ⟨t, h, hticks⟩ := exec_decodeKey_tickDelta 1 s
    refine ⟨t, h, hticks.trans ?_⟩
    rw [hs]
    decide
  · obtain ⟨t, h, hticks⟩ := exec_decodeKey_tickDelta 2 s
    refine ⟨t, h, hticks.trans ?_⟩
    rw [hs]
    decide

/-- WRITE of a valid channel stores the position, leaving the pending ticks, and responds 0 (R123). -/
theorem exec_write_val (c : Fin 8) (v : Word32) (s : State) : exec (.write c.val v) s =
    .next ((s.setChan c { s.chan[c] with position := v }).respond 0#32) := by
  simp [exec, execWrite]

/-- The position a slow READ of a valid channel leaves (R106). -/
theorem State.read_position_slow {v : Nat} {neutral : Word32} {c : Fin 8} {s : State}
    (hslow : ¬ IsFast v s.chan[c] s.nowMs) : (s.read v neutral c.val).chan[c].position =
      wrapS32 (sval s.chan[c].position + sval s.chan[c].tickDelta) := by
  rw [isFast_iff_fast, Bool.not_eq_true] at hslow
  rw [State.read_chan_self]
  exact readPosition_slow hslow

/-- Settles O22: WRITE leaves what the velocity test reads, so the READ after it is slow and adds the pending ticks. -/
theorem readAfterWrite : Obligations.ReadAfterWrite := by
  intro s c v data hslow
  let t := (s.setChan c { s.chan[c] with position := v }).respond 0#32
  have hrec : t.chan[c] = { s.chan[c] with position := v } := s.setChan_same c _
  have hpos : (t.read Config.velThreshold Config.neutral c.val).chan[c].position =
      wrapS32 (sval v + sval s.chan[c].tickDelta) := by
    rw [State.read_position_slow (by rwa [hrec]), hrec]
  exact ⟨t, _, exec_write_val c v s, rfl, (State.read_rsp _ _ c t).trans (congrArg some hpos), hpos⟩

end Sys2Proof.Machine
end

section
/-!
SUPPORT. The interrupt dispatcher (42_interrupt_dispatcher.md): its query phases (R91, R92), UPDATE and the whole
interrupt operation on the records (R93, R95), and the four phase steps run edge by edge against the operation as one function.
-/

namespace Sys2Proof.Machine

/-! ### The query phases -/

/-- Settles O41: the edge takes the low four bits of the answer, or waits (`clkEdge_qpin`). -/
theorem pinQueryPhase : Obligations.PinQueryPhase := by
  intro s p rest hd
  refine ⟨by simp [State.ppReq, hd], by simp [State.ppOp, hd], _,
    (step_with_edge s p rest).trans (clkEdge_qpin (s := { s with env := rest }) hd), ?_⟩
  cases hack : p.ppAck with
  | true => simp [BitVec.extractLsb'_toNat]
  | false => simp [hd]

/-- Settles O42: the edge takes the whole answer, or waits (`clkEdge_qport`). -/
theorem portQueryPhase : Obligations.PortQueryPhase := by
  intro s p rest hd
  refine ⟨by simp [State.ppReq, hd], by simp [State.ppOp, hd], _,
    (step_with_edge s p rest).trans (clkEdge_qport (s := { s with env := rest }) hd), ?_⟩
  cases hack : p.ppAck with
  | true => simp
  | false => simp [hd]

/-! ### The records after an interrupt operation -/

/-- R59: the channel that owns a pin is half the pin's number. -/
theorem pinChannel_eq_iff {pin : BitVec 4} {c : Fin 8} : pinChannel pin = c ↔ c.val = pin.toNat / 2 := by
  rw [Fin.ext_iff, eq_comm]
  rfl

/-- The key stored is the one formed by shifting (R56, R58). -/
theorem Channel.afterSample_history_toNat (r : Channel) (snap : BitVec 16) (c : Fin 8) :
    (r.afterSample (sampleOf snap c)).history.toNat = keyByShift r.history snap c.val := by
  rw [Channel.afterSample, keyOf_toNat, sampleOf_toNat, keyByShift]

/-- The delta added is the entry of R71's list at the key formed by shifting. -/
theorem Channel.afterSample_tickDelta (r : Channel) (snap : BitVec 16) (c : Fin 8) :
    (r.afterSample (sampleOf snap c)).tickDelta =
      wrapS32 (sval r.tickDelta + deltaList.getD (keyByShift r.history snap c.val) 0) := by
  rw [deltaList_keyByShift]
  rfl

/-- Where one channel alone takes its pair of the snapshot as a sample: the spec's account of its record, with the key
formed by shifting and R71's list, and of every other (R56, R58, R59, R71). -/
theorem records_of_afterSample {pin : BitVec 4} {snap : BitVec 16} {s t : State}
    (h : ∀ c : Fin 8, t.chan[c] =
      if pinChannel pin = c then s.chan[c].afterSample (sampleOf snap c) else s.chan[c]) :
    (∀ c : Fin 8, c.val = pin.toNat / 2 →
      (t.chan[c].history.toNat = keyByShift s.chan[c].history snap c.val ∧
       t.chan[c].tickDelta =
         wrapS32 (sval s.chan[c].tickDelta + deltaList.getD (keyByShift s.chan[c].history snap c.val) 0) ∧
       t.chan[c].position = s.chan[c].position ∧ t.chan[c].lastReadTime = s.chan[c].lastReadTime ∧
       t.chan[c].accel = s.chan[c].accel)) ∧
    (∀ c : Fin 8, c.val ≠ pin.toNat / 2 → t.chan[c] = s.chan[c]) := by
  refine ⟨fun c hc => ?_, fun c hc => ?_⟩
  · rw [h c, if_pos (pinChannel_eq_iff.2 hc)]
    exact ⟨Channel.afterSample_history_toNat _ _ _, Channel.afterSample_tickDelta _ _ _, rfl, rfl, rfl⟩
  · rw [h c, if_neg (mt pinChannel_eq_iff.1 hc)]

/-- Settles O43: the records by `update_chan`; steps 7 and 8 write the rest. -/
theorem updatePhase : Obligations.UpdatePhase := by
  intro s p rest hd ha
  have hstep : step { s with env := .edge p :: rest } =
      .next ({ s with env := rest }.sample p.intN p.nowMs).update := by
    rw [step_with_edge, clkEdge_update (s := { s with env := rest }) hd, if_pos ha]
  obtain ⟨hsel, hother⟩ := records_of_afterSample (State.update_chan ({ s with env := rest }.sample p.intN p.nowMs))
  exact ⟨_, hstep, hsel, hother, rfl, rfl, rfl, rfl, rfl, rfl⟩

/-- Settles O31: on such a block the operation runs whole (`exec_irq_eq`), its records by `service_chan_afterSample`. -/
theorem irqOperationNetEffect : Obligations.IrqOperationNetEffect := by
  intro s p sn hd hl hg
  have hexec : exec (.irq p sn) s = .next (s.latchFall.service p sn) := by
    rw [exec_irq_eq, if_pos ⟨hd, hl, hg⟩]
  obtain ⟨hsel, hother⟩ := records_of_afterSample (State.service_chan_afterSample s.latchFall p sn)
  exact ⟨_, hexec, hsel, hother, rfl, rfl, rfl, rfl, rfl, rfl, rfl, ⟨rfl, rfl⟩, rfl, rfl⟩

/-! ### The operation edge by edge -/

/-- `u` between two edges of a service: the line last seen low, no response standing, `env` still to come. -/
def State.betweenEdges (env : List Input) (u : State) : State := { u with intNQ := false, rsp := none, env := env }

/-- A pin answer that carries four bits in sixteen is those four bits (R91). -/
theorem extractLsb'_zeroExtend_pin (pin : BitVec 4) : (pin.zeroExtend 16).extractLsb' 0 4 = pin := by
  revert pin; decide

section Edges

variable {s u : State} {p : Ports} {rest : List Input}

/-- The line falls on an idle block with nothing pending: the edge is latched, no operation happens (R138). -/
theorem step_lineFalls (hd : s.dphase = .idle) (hp : s.irqPending = false) (hq : s.intNQ = true)
    (hv : p.cmdValid = false) (hline : p.intN = false) (hnow : p.nowMs = s.nowMs) :
    step { s with env := .edge p :: rest } = .next (s.latchFall.betweenEdges rest) := by
  have hn : State.performsAt p { s with env := rest } = .nothing := by simp [State.performsAt, hd, hp, hv]
  rw [step_with_edge, clkEdge_nothing hn, State.waits_eq, hq, hline, hnow]
  simp [State.betweenEdges, State.latchFall]

/-- ENTRY with the line low (R140). -/
theorem step_betweenEdges_entry (h : u.startable = true) (ha : p.advance = true) (hline : p.intN = false)
    (hnow : p.nowMs = u.nowMs) : step (u.betweenEdges (.edge p :: rest)) = .next (u.entry.betweenEdges rest) := by
  rw [step_edge rfl]
  exact (clkEdge_entry (s := u.betweenEdges rest) h ha).trans (by rw [hline, hnow]; rfl)

/-- The pin answer with the line low (R91). -/
theorem step_betweenEdges_qpin (hd : u.dphase = .qpin) (ha : p.ppAck = true) (hline : p.intN = false)
    (hnow : p.nowMs = u.nowMs) :
    step (u.betweenEdges (.edge p :: rest)) = .next ((u.qpin (p.ppData.extractLsb' 0 4)).betweenEdges rest) := by
  rw [step_edge rfl]
  exact (clkEdge_qpin (s := u.betweenEdges rest) hd).trans (by rw [if_pos ha, hline, hnow]; rfl)

/-- The port answer with the line low (R92). -/
theorem step_betweenEdges_qport (hd : u.dphase = .qport) (ha : p.ppAck = true) (hline : p.intN = false)
    (hnow : p.nowMs = u.nowMs) :
    step (u.betweenEdges (.edge p :: rest)) = .next ((u.qport p.ppData).betweenEdges rest) := by
  rw [step_edge rfl]
  exact (clkEdge_qport (s := u.betweenEdges rest) hd).trans (by rw [if_pos ha, hline, hnow]; rfl)

/-- UPDATE, which remembers the level the line then has (R93, R23). -/
theorem step_betweenEdges_update {level : Bool} (hd : u.dphase = .update) (ha : p.advance = true)
    (hline : p.intN = level) (hnow : p.nowMs = u.nowMs) :
    step (u.betweenEdges (.edge p :: rest)) =
      .next (State.update { u with intNQ := level, rsp := none, env := rest }) := by
  rw [step_edge rfl]
  exact (clkEdge_update (s := u.betweenEdges rest) hd).trans (by rw [if_pos ha, hline, hnow]; rfl)

end Edges

/-- Settles O51: one step lemma for each of the five edges; the last ends with the line high, as the test form
leaves it. -/
theorem phasesRefineTheIrqOperation : Obligations.PhasesRefineTheIrqOperation := by
  intro s p sn rest hd hl hg hp hq
  have hstart : s.latchFall.startable = true := State.startable_iff.2 ⟨hd, rfl, hl, hg⟩
  rw [exec_irq_eq, if_pos ⟨hd, hl, hg⟩, serviceInputs]
  simp only [List.cons_append, List.nil_append]
  rw [run_next (step_lineFalls hd hp hq rfl rfl rfl), run_next (step_betweenEdges_entry hstart rfl rfl rfl),
    run_next (step_betweenEdges_qpin rfl rfl rfl rfl), run_next (step_betweenEdges_qport rfl rfl rfl rfl),
    run_next (step_betweenEdges_update rfl rfl hq.symm rfl), extractLsb'_zeroExtend_pin]
  rfl

end Sys2Proof.Machine
end

section
/-!
PROOFS. The velocity scaler (43_position_reader.md, sections 2 and 3): the velocity test as a comparison of rationals
(R109), the classes of a factor's pattern (R110), and the scaled delta (R111, R112).
-/

namespace Sys2Proof.Machine

/-! ### The velocity test -/

/-- `FAST` compares the velocity, a rational, with the threshold: the elapsed time is multiplied out (R109). -/
theorem fast_iff_lt_velocity {v : Nat} {d : ℤ} {e : Nat} :
    fast v d e = true ↔ e ≠ 0 ∧ (v : ℚ) < |(d : ℚ)| / e := by
  rw [fast_iff]
  refine and_congr_right fun he => ?_
  have hpos : (0 : ℚ) < e := Nat.cast_pos.2 (Nat.pos_of_ne_zero he)
  rw [lt_div_iff₀ hpos, ← Int.cast_abs, Int.abs_eq_natAbs]
  norm_cast

/-- Settles O18: the comparison is `fast_iff_lt_velocity`; only the size of the delta enters it, and one millisecond at
this hardware's threshold already takes 12 ticks. -/
theorem fastIsTheExactVelocityTest : Obligations.FastIsTheExactVelocityTest := by
  refine ⟨fun _ _ _ => fast_iff_lt_velocity, fun v d e => ?_, fast_zero, fun d e h => ?_, velThreshold_eq⟩
  · rw [fast, fast, Int.natAbs_neg]
  · obtain ⟨he, hlt⟩ := fast_iff.1 h
    rw [Int.abs_eq_natAbs]
    omega

/-! ### The factor -/

/-- The sign field of a pattern is its top bit (R110). -/
theorem sign_eq_ofBool (b : Word32) : b.extractLsb' 31 1 = BitVec.ofBool (b.getLsbD 31) := by
  refine BitVec.eq_of_getLsbD_eq fun i hi => ?_
  obtain rfl : i = 0 := by omega
  simp

/-- A pattern with the exponent all ones is a NaN or an infinity, as fraction and sign say (R110). -/
theorem val32_of_exponent_ones {b : Word32} (h : b.extractLsb' 23 8 = 255#8) : val32 b =
    if b.extractLsb' 0 23 = 0#23 then (if b.getLsbD 31 then .negInf else .posInf) else .nan := by
  have he : (b.extractLsb' 23 8).toNat = 255 := by rw [h]; rfl
  simp only [val32, if_pos he, BitVec.toNat_eq, BitVec.toNat_ofNat, Nat.zero_mod]

/-- A pattern with any other exponent is finite (R110). -/
theorem exists_val32_eq_finite {b : Word32} (h : b.extractLsb' 23 8 ≠ 255#8) : ∃ num exp, val32 b = .finite num exp := by
  have he : (b.extractLsb' 23 8).toNat ≠ 255 := mt (fun he => BitVec.eq_of_toNat_eq he) h
  rw [val32, if_neg he]
  split <;> exact ⟨_, _, rfl⟩

/-- The rational of a finite pattern (R110). -/
theorem finiteValue_of_val32 {b : Word32} {num exp : ℤ} (h : val32 b = .finite num exp) :
    finiteValue b = some (num * (2 : ℚ) ^ exp) := by
  rw [finiteValue_eq_toRat, h, Val32.toRat]

/-- The factor of reset and INIT is 1 (R26, R110). -/
theorem finiteValue_accelOne : finiteValue 0x3F800000#32 = some 1 := by
  norm_num [finiteValue_of_val32 (show val32 0x3F800000#32 = .finite 8388608 (-23) by decide)]

/-- Settles O19: with the exponent all ones the class is fraction and sign (`val32_of_exponent_ones`), with any other the
pattern is finite; the examples evaluate. -/
theorem factorValueIsBinary32 : Obligations.FactorValueIsBinary32 := by
  refine ⟨fun b => ?_, finiteValue_accelOne, ?_, ?_, ?_, ?_, ?_, ?_, by decide, by decide⟩
  · by_cases h : b.extractLsb' 23 8 = 255#8
    · rw [val32_of_exponent_ones h, sign_eq_ofBool]
      by_cases hm : b.extractLsb' 0 23 = 0#23
      · cases b.getLsbD 31 <;> simp [h, hm]
      · simp [h, hm]
    · obtain ⟨num, exp, hv⟩ := exists_val32_eq_finite h
      exact ⟨by simp [h, hv], by simp [h, hv], by simp [h, hv], fun _ => ⟨num, exp, hv, finiteValue_of_val32 hv⟩⟩
  all_goals norm_num [finiteValue, Nat.shiftRight_eq_div_pow]

/-! ### The scaled delta -/

/-- Truncation toward zero is odd (R111). -/
theorem truncRat_neg (q : ℚ) : truncRat (-q) = -truncRat q := by
  obtain hq | rfl | hq := lt_trichotomy q 0
  · simp [truncRat, hq.le, not_le.2 hq, Int.floor_neg]
  · simp [truncRat]
  · simp [truncRat, hq.le, not_le.2 hq, Int.ceil_neg]

/-- Settles O20: the exact product is `scale_eq_truncRat`, and truncation toward zero is odd. -/
theorem scaleTruncatesTheExactProduct : Obligations.ScaleTruncatesTheExactProduct := fun d a f hf =>
  ⟨scale_eq_truncRat hf, by rw [scale_eq_truncRat hf, Int.cast_neg, neg_mul, truncRat_neg]⟩

/-- The factor 1.0 scales nothing (R117). -/
theorem scale_accelOne (d : ℤ) : scale d 0x3F800000#32 = some d := by
  rw [scale_eq_truncRat finiteValue_accelOne, mul_one, truncRat_intCast]

/-- A NaN or an infinity leaves the scaled delta open (R112). -/
theorem scale_eq_none {d : ℤ} {a : Word32} (ha : finiteValue a = none) : scale d a = none := by
  rw [finiteValue_eq_toRat] at ha
  unfold scale
  cases hv : val32 a with
  | finite num exp => simp [hv, Val32.toRat] at ha
  | nan | posInf | negInf => rfl

end Sys2Proof.Machine
end

section
/-!
PROOFS. READ (43_position_reader.md, section 1): the drain with its frame (R106, R107, R114), and what it leaves with no
ticks pending (R107), in no elapsed time (R113), with the factor 1.0 (R117) and with a factor that is no number (R112).
-/

namespace Sys2Proof.Machine

/-- READ of a valid channel leaves the control state, and ends with interrupts enabled (R106, R108). -/
theorem State.read_sameControlButGie (v : Nat) (neutral : Word32) (c : Fin 8) (s : State) :
    SameControlButGie s (s.read v neutral c.val) ∧ (s.read v neutral c.val).gie = true := by
  rw [State.read_some (chanOf_val c)]
  exact ⟨⟨rfl, rfl, rfl, rfl, rfl, rfl⟩, rfl⟩

/-- Settles O14: such an index reaches no record. -/
theorem readInvalidChannel : Obligations.ReadInvalidChannel := fun _ _ _ hch =>
  congrArg Host.Outcome.next (State.read_none (chanOf_invalid hch))

/-- Settles O13: the drain of `readTakesTheThreshold` at this hardware's threshold, with the frame of READ. -/
theorem readDrainsIntoPosition : Obligations.ReadDrainsIntoPosition := by
  refine ⟨fun s c data => ?_, readInvalidChannel⟩
  obtain ⟨hexec, hdrain, -⟩ := readTakesTheThreshold
  obtain ⟨add, hslow, hfast, hrec, hrsp, hothers⟩ := hdrain 11 0#32 s c (by decide)
  obtain ⟨hcontrol, hgie⟩ := State.read_sameControlButGie 11 0#32 c s
  have hread := hexec s c.val data
  exact ⟨_, add, hread, hslow, hfast, hrec, hrsp, hothers, hcontrol, hgie, exec_sameInputs hread⟩

/-- With no ticks pending the position READ leaves is the one it finds (R107). -/
theorem readPosition_of_no_ticks {v : Nat} {r : Channel} {now free : Word32} (h : r.tickDelta = 0#32) :
    readPosition v r now free = r.position := by
  have hd : sval r.tickDelta = 0 := by rw [h]; rfl
  rw [readPosition_slow (by rw [hd, fast_zero]), hd, wrapS32_sval_add_zero]

/-- Settles O15: the first READ leaves no ticks, so the second leaves the position (`readPosition_of_no_ticks`). -/
theorem secondReadAddsNothing : Obligations.SecondReadAddsNothing := by
  intro s c data data' now'
  let t := s.read Config.velThreshold Config.neutral c.val
  let u := State.read Config.velThreshold Config.neutral c.val { t with nowMs := now' }
  have ht : t.chan[c] = drainRecord _ s.chan[c] s.nowMs _ := State.read_chan_self _ _ c s
  have hu : u.chan[c] = drainRecord _ t.chan[c] now' _ := State.read_chan_self _ _ c { t with nowMs := now' }
  have hticks : t.chan[c].tickDelta = 0#32 := by rw [ht, drainRecord]
  have hpos : u.chan[c].position = t.chan[c].position := by
    rw [hu, drainRecord]
    exact readPosition_of_no_ticks hticks
  have hrsp : u.rsp = t.rsp :=
    (State.read_rsp _ _ c _).trans ((congrArg some hpos).trans (State.read_rsp _ _ c s).symm)
  exact ⟨t, u, rfl, hticks, by rw [ht, drainRecord], rfl, hpos, hrsp, by rw [hu, drainRecord]⟩

/-- No velocity is above the threshold in no time (R113). -/
theorem not_isFast_of_lastReadTime_eq {v : Nat} {r : Channel} {now : Word32} (h : r.lastReadTime = now) :
    ¬ IsFast v r now := by
  rintro ⟨helapsed, -⟩
  exact helapsed (by simp [elapsedMs, h])

/-- Settles O16: in no time nothing is fast, so the drain adds the raw delta. -/
theorem zeroElapsedReadIsUnscaled : Obligations.ZeroElapsedReadIsUnscaled := by
  intro s c data htime
  obtain ⟨hdrain, -⟩ := readDrainsIntoPosition
  obtain ⟨t, add, hexec, hslow, -, hrec, hrsp, -⟩ := hdrain s c data
  obtain rfl := hslow (not_isFast_of_lastReadTime_eq htime)
  exact ⟨t, hexec, hrec, by rw [hrsp, hrec]⟩

/-- Settles O17: slow or fast, what the drain adds is the raw delta; and R16 lists no READ among the factor's writers. -/
theorem factorOneAddsTheRawDelta : Obligations.FactorOneAddsTheRawDelta := by
  refine ⟨scale_accelOne, fun s c data haccel => ?_, fun s t ch data h c => ?_⟩
  · obtain ⟨hdrain, -⟩ := readDrainsIntoPosition
    obtain ⟨t, add, hexec, hslow, hfast, hrec, -⟩ := hdrain s c data
    have hadd : add = sval s.chan[c].tickDelta := by
      by_cases hf : IsFast 11 s.chan[c] s.nowMs
      · rw [hfast hf 1 (haccel ▸ finiteValue_accelOne), mul_one, truncRat_intCast]
      · exact hslow hf
    exact ⟨t, hexec, by rw [hrec, hadd]⟩
  · obtain ⟨-, -, -, -, hwriters⟩ := (exec_recordEffect h c).fieldWriters
    by_contra hne
    exact absurd (hwriters hne) (by simp [columnOf])

/-- Settles O21: the scaled delta is open (`scale_eq_none`), so the drain stores the free value. -/
theorem nonFiniteFactorReadCompletes : Obligations.NonFiniteFactorReadCompletes := by
  intro s c data hfast hfactor
  have hpos : readPosition 11 s.chan[c] s.nowMs (Config.freePosition s.freeCount) =
      Config.freePosition s.freeCount := by
    rw [readPosition_fast (isFast_iff_fast.1 hfast), scale_eq_none hfactor]
    rfl
  have hrec := State.read_chan_self 11 0#32 c s
  rw [drainRecord, hpos] at hrec
  exact ⟨s.read 11 0#32 c.val, rfl, hrec, by rw [State.read_rsp, hrec], State.read_sameRecordsBut _ _ c s⟩

end Sys2Proof.Machine
end

section
/-!
PROOFS. The host commands (44_host_commands.md): INIT, WRITE, SETACC and the reserved opcodes with their frames (R120,
R123, R125, R127), and the block before INIT has armed the line (R129, R166): it counts nothing, and without a command it
does nothing.
-/

namespace Sys2Proof.Machine

/-! ### The commands -/

/-- Storing a record and responding, with the frame. -/
theorem State.setChan_respond_frame (s : State) (c : Fin 8) (r : Channel) (v : Word32) :
    ((s.setChan c r).respond v).chan[c] = r ∧ SameRecordsBut c s ((s.setChan c r).respond v) ∧
      ((s.setChan c r).respond v).rsp = some v ∧ SameControl s ((s.setChan c r).respond v) ∧
      SameInputs s ((s.setChan c r).respond v) ∧ ((s.setChan c r).respond v).freeCount = s.freeCount :=
  ⟨s.setChan_same c r, fun c' hc' => s.setChan_other c c' r hc', rfl, ⟨⟨rfl, rfl, rfl, rfl, rfl, rfl⟩, rfl⟩,
    ⟨rfl, rfl⟩, rfl⟩

/-- SETACC of a valid channel stores the factor's pattern and responds 0 (R125). -/
theorem exec_setacc_val (c : Fin 8) (f : Word32) (s : State) : exec (.setacc c.val f) s =
    .next ((s.setChan c { s.chan[c] with accel := f }).respond 0#32) := by
  simp [exec, execSetacc]

/-- WRITE outside `0 .. 7` is its response alone (R34). -/
theorem exec_write_invalid {ch : Int} (hch : ch < 0 ∨ 8 ≤ ch) (v : Word32) (s : State) :
    exec (.write ch v) s = .next (s.respond 0#32) := by
  simp [exec, execWrite, chanOf_invalid hch]

/-- SETACC outside `0 .. 7` is its response alone (R34). -/
theorem exec_setacc_invalid {ch : Int} (hch : ch < 0 ∨ 8 ≤ ch) (f : Word32) (s : State) :
    exec (.setacc ch f) s = .next (s.respond 0#32) := by
  simp [exec, execSetacc, chanOf_invalid hch]

/-- An operation in no column of R16's table is its response alone (R127). -/
theorem exec_of_column_none {i : Instr} (hi : columnOf i = .none) (s : State) : exec i s = .next (s.respond 0#32) := by
  cases i <;> cases hi <;> rfl

/-- INIT arms the line (R120). -/
theorem exec_init_arms {i : Instr} {s t : State} (hi : columnOf i = .init) (h : exec i s = .next t) :
    t.lineArmed = true := by
  cases i <;> cases hi
  cases h
  rfl

/-- Settles O8: INIT stores a fresh record in every channel, writes line, latch and mask as constants, and nothing else. -/
theorem initInitializesEverything : Obligations.InitInitializesEverything := fun s _ _ =>
  ⟨_, rfl, s.freshChannels_record s.nowMs, rfl, rfl, rfl, rfl, rfl, rfl, rfl, rfl, ⟨rfl, rfl⟩, rfl⟩

/-- Settles O9: WRITE stores one record, or none. -/
theorem writeOverwritesPosition : Obligations.WriteOverwritesPosition :=
  ⟨fun s c v => ⟨_, exec_write_val c v s, s.setChan_respond_frame c _ _⟩,
    fun s _ v hch => exec_write_invalid hch v s⟩

/-- Settles O10: SETACC stores one record, or none. -/
theorem setaccOverwritesFactor : Obligations.SetaccOverwritesFactor :=
  ⟨fun s c f => ⟨_, exec_setacc_val c f s, s.setChan_respond_frame c _ _⟩,
    fun s _ f hch => exec_setacc_invalid hch f s⟩

/-- Settles O11: the reserved operations are in no column of R16's table. -/
theorem reservedOpcodesChangeNothing : Obligations.ReservedOpcodesChangeNothing := by
  intro s ch data i hi
  refine exec_of_column_none ?_ s
  revert i
  simp [columnOf]

/-! ### The line not armed -/

/-- A record keeps its history, and has its ticks as they were or drained. -/
def Channel.CountsNothing (r r' : Channel) : Prop :=
  r'.history = r.history ∧ (r'.tickDelta = r.tickDelta ∨ r'.tickDelta = 0#32)

/-- The same record has counted nothing. -/
theorem Channel.countsNothing_refl (r : Channel) : r.CountsNothing r := ⟨rfl, .inl rfl⟩

/-- A host command that does not arm the line counts nothing: INIT would arm it, READ drains, and no other command
writes ticks or history (R16, R107). -/
theorem exec_countsNothing {i : Instr} {s t : State} (hi : i.format = .cmd) (h : exec i s = .next t)
    (ht : t.lineArmed = false) (c : Fin 8) : s.chan[c].CountsNothing t.chan[c] := by
  have heff := exec_recordEffect h c
  have hdrain := exec_drains (c := c) h
  generalize hcol : columnOf i = col at heff hdrain
  generalize t.chan[c] = r' at heff hdrain ⊢
  cases heff with
  | keep => exact Channel.countsNothing_refl _
  | init => simp [exec_init_arms hcol h] at ht
  | irq => exact absurd hcol (columnOf_ne_irq hi)
  | read hn => exact ⟨rfl, .inr (hdrain (.inr ⟨rfl, hn⟩))⟩
  | write | setacc => exact ⟨rfl, .inl rfl⟩

section Unarmed

variable {s t : State} (hd : s.dphase = .idle) (hl : s.lineArmed = false)

include hl in
/-- With the line not armed the start condition does not hold (R139). -/
theorem State.not_startable_of_unarmed : s.startable = false := by
  simp [State.startable, hl]

include hd hl

/-- An idle, unarmed block is ready for a command (R148). -/
theorem State.cmdReady_of_unarmed : s.cmdReady = true := State.cmdReady_iff.2 ⟨hd, .inr hl⟩

/-- An edge that leaves an idle block unarmed counts nothing: at most it accepts a command (R129). -/
theorem clkEdge_countsNothing {p : Ports} (h : clkEdge p s = .next t) (ht : t.lineArmed = false) (c : Fin 8) :
    s.chan[c].CountsNothing t.chan[c] := by
  obtain ⟨hst, -⟩ | ⟨-, -, u, hu, rfl⟩ | ⟨hq, -⟩ | ⟨hq, -⟩ | ⟨hq, -⟩ | ⟨-, -, rfl⟩ := clkEdge_inv h
  · simp [State.not_startable_of_unarmed hl] at hst
  · rw [State.latchIf_lineArmed] at ht
    rw [State.latchIf_chan]
    exact exec_countsNothing (format_decodeCmd _) hu ht c
  · simp [hd] at hq
  · simp [hd] at hq
  · simp [hd] at hq
  · rw [State.waits_chan]
    exact Channel.countsNothing_refl _

/-- A step that leaves an idle block unarmed counts nothing, but for a reset event (R129, R166). -/
theorem step_countsNothing (h : step s = .next t) (ht : t.lineArmed = false) (c : Fin 8) :
    s.chan[c].CountsNothing t.chan[c] ∨ ∃ n rest, s.env = .reset n :: rest ∧ t.chan[c] = Channel.fresh n := by
  rcases he : s.env with _ | ⟨p | n | w, rest⟩
  · rw [step_quiet he] at h
    exact .inl (clkEdge_countsNothing hd hl h ht c)
  · rw [step_edge he] at h
    exact .inl (clkEdge_countsNothing (s := { s with env := rest }) hd hl h ht c)
  · rw [step_reset he] at h
    cases h
    exact .inr ⟨n, rest, rfl, by simp⟩
  · rw [step_irqOp he] at h
    obtain ⟨-, hl', -⟩ | rfl := exec_irq_cases h
    · simp [hl] at hl'
    · exact .inl (Channel.countsNothing_refl _)

/-- A step leaves an idle, unarmed block idle: no interrupt operation starts (R139). -/
theorem step_dphase_of_unarmed (h : step s = .next t) : t.dphase = .idle := by
  obtain hsame | ⟨-, -, -, hl', -⟩ | ⟨hq, -⟩ | ⟨hq, -⟩ | ⟨hq, -⟩ | ⟨-, hidle⟩ := phaseAdvancesInOrder s t h
  · exact hsame.trans hd
  · simp [hl] at hl'
  · simp [hd] at hq
  · simp [hd] at hq
  · simp [hd] at hq
  · exact hidle

/-- Where the inputs to come are edges that offer no command, an idle, unarmed block only samples the next one. -/
theorem step_waits_of_unarmed (henv : ∀ i ∈ s.env, ∃ p : Ports, i = .edge p ∧ p.cmdValid = false) :
    ∃ p, step s = .next (State.waits p { s with env := s.env.tail }) := by
  have hst := State.not_startable_of_unarmed hl
  rcases he : s.env with _ | ⟨i, rest⟩
  · have hs : { s with env := [] } = s := by rw [← he]
    refine ⟨s.quietPorts, ?_⟩
    rw [step_quiet he, List.tail_nil, hs]
    exact clkEdge_idle_waits hd hst nofun
  · obtain ⟨p, rfl, hv⟩ := henv i (by simp [he])
    refine ⟨p, ?_⟩
    rw [step_edge he]
    exact clkEdge_idle_waits hd hst (by simp [hv])

end Unarmed

/-- Settles O47: the phase stays (`step_dphase_of_unarmed`), and a step counts nothing or is a reset event, which leaves no
ticks (`step_countsNothing`). -/
theorem unarmedLineCountsNothing : Obligations.UnarmedLineCountsNothing := by
  intro s t hd hl h ht
  refine ⟨step_dphase_of_unarmed hd hl h, fun c => ?_⟩
  obtain ⟨hhist, hticks⟩ | ⟨n, rest, he, hfresh⟩ := step_countsNothing hd hl h ht c
  · exact ⟨.inl hhist, hticks⟩
  · exact ⟨.inr ⟨n, rest, he⟩, .inr (by rw [hfresh]; rfl)⟩

/-- Settles O58, by induction on the number of steps: each only samples its inputs (`step_waits_of_unarmed`). -/
theorem nothingUntilACommand : Obligations.NothingUntilACommand := by
  intro n
  induction n with
  | zero => exact fun s hd hl _ => ⟨s, rfl, rfl, hl, rfl, hd, rfl, rfl, State.cmdReady_of_unarmed hd hl⟩
  | succ n ih =>
    intro s hd hl henv
    obtain ⟨p, h⟩ := step_waits_of_unarmed hd hl henv
    obtain ⟨t, hrun, hstays⟩ := ih (State.waits p { s with env := s.env.tail }) (by simpa) (by simpa)
      fun i hi => henv i (List.mem_of_mem_tail (by simpa using hi))
    exact ⟨t, (run_next h).trans hrun, by simpa using hstays⟩

end Sys2Proof.Machine
end

section
/-!
PROOFS. The interrupt and what is accepted beside it (60_exceptions.md): ENTRY (R139 to R142), the test form where it
cannot start (R138), `cmd_ready` (R148), invalid channels and faults (R150, R151), and a line that stays low, which is
never served (R147, R174).
-/

namespace Sys2Proof.Machine

/-! ### Faults and invalid channels -/

/-- Settles O36: every operation has a next state, and so has every step. -/
theorem nothingFaults : Obligations.NothingFaults := ⟨exists_exec_next, exists_step_next⟩

/-- Settles O12: each of the three commands reaches no record with such an index. -/
theorem invalidChannelChangesNothing : Obligations.InvalidChannelChangesNothing := by
  intro s ch data hch i hi
  simp only [List.mem_cons, List.not_mem_nil, or_false] at hi
  obtain rfl | rfl | rfl := hi
  · exact readInvalidChannel s ch data hch
  · exact exec_write_invalid hch data s
  · exact exec_setacc_invalid hch data s

/-! ### Where an interrupt starts -/

/-- Settles O32: without its condition the test form is the latch alone (`exec_irq_eq`). -/
theorem irqWithoutStartOnlyLatches : Obligations.IrqWithoutStartOnlyLatches := by
  intro s p sn hstart
  rw [exec_irq_eq, if_neg hstart]
  rfl

/-- Settles O40: the start condition holds whatever is offered, so the edge is ENTRY (`clkEdge_entry`). -/
theorem interruptEntry : Obligations.InterruptEntry := by
  intro s p rest hd hp hl hg ha
  have hstart : State.startable { s with env := rest } = true := State.startable_iff.2 ⟨hd, hp, hl, hg⟩
  refine ⟨_, (step_with_edge s p rest).trans (clkEdge_entry hstart ha), ?_⟩
  simp [hp]

/-! ### Command acceptance -/

/-- The command inputs are looked at only where `cmd_ready` holds (R148). -/
theorem clkEdge_of_not_cmdReady {s : State} (hr : s.cmdReady = false) (p : Ports) (v : Bool) (w : BitVec 44) :
    clkEdge { p with cmdValid := v, cmdWord := w } s = clkEdge p s := by
  have hsampled : (s.sample p.intN p.nowMs).cmdReady = false := hr
  simp only [clkEdge, hsampled, Bool.and_false, Bool.false_eq_true, if_false]

/-- An edge that accepts a command has its response (R54, R148). -/
theorem exists_step_command_responds {s : State} {p : Ports} {rest : List Input} (he : s.env = .edge p :: rest)
    (hv : p.cmdValid = true) (hr : s.cmdReady = true) : ∃ t, step s = .next t ∧ t.rsp.isSome = true := by
  obtain ⟨u, hu⟩ := exists_exec_next (decodeCmd p.cmdWord) ({ s with env := rest }.sample p.intN p.nowMs)
  refine ⟨u.latchIf (s.fallingEdge p.intN), ?_, ?_⟩
  · rw [step_command he hv hr, hu, andThen_next]
  · rw [State.latchIf_rsp]
    exact Option.isSome_iff_ne_none.2 (exec_commandEffect (format_decodeCmd _) hu).responds

/-- Settles O38: a ready block runs the word; one that is not looks at none (`clkEdge_of_not_cmdReady`). -/
theorem commandAcceptance : Obligations.CommandAcceptance := by
  refine ⟨fun s => ?_, fun s p rest hv hr => ?_, fun s p rest w hr => ⟨?_, ?_⟩⟩
  · rw [State.cmdReady_iff, not_and_or, Bool.not_eq_true, Bool.not_eq_true]
  · exact exists_step_command_responds rfl hv hr
  · have hignored := clkEdge_of_not_cmdReady (s := { s with env := rest }) hr p
    exact (hignored true w).trans (hignored false p.cmdWord).symm
  · obtain ⟨t, h⟩ := exists_clkEdge_next { p with cmdValid := true, cmdWord := w } { s with env := rest }
    refine ⟨t, h, clkEdge_rsp_none h ?_⟩
    rintro ⟨-, hready⟩
    exact nomatch hr.symm.trans hready

/-! ### A line that stays low -/

/-- An edge leaves the inputs to come. -/
theorem clkEdge_env {p : Ports} {s t : State} (h : clkEdge p s = .next t) : t.env = s.env := by
  obtain ⟨-, -, rfl⟩ | ⟨-, -, u, hu, rfl⟩ | ⟨-, -, rfl⟩ | ⟨-, -, rfl⟩ | ⟨-, -, rfl⟩ | ⟨-, -, rfl⟩ := clkEdge_inv h
  · simp
  · obtain ⟨-, henv⟩ := exec_sameInputs hu
    simp [henv]
  · simp
  · simp
  · rfl
  · simp

/-- An edge on an idle block performs no operation of the interrupt's column: ENTRY writes no record, and a command is
not in it (R16). -/
theorem State.performsAt_column_ne_irq {s : State} (hd : s.dphase = .idle) (p : Ports) :
    (s.performsAt p).column ≠ .irq := by
  simp only [State.performsAt, hd]
  split
  · split <;> exact nofun
  · split
    · exact columnOf_ne_irq (format_decodeCmd _)
    · exact nofun

/-- A step outside the interrupt's column counts no ticks: it keeps the accumulator or drains it (R82). -/
theorem step_tickDelta_of_column_ne_irq {s t : State} (h : step s = .next t) (hcol : s.performs.column ≠ .irq)
    (c : Fin 8) : t.chan[c].tickDelta = s.chan[c].tickDelta ∨ t.chan[c].tickDelta = 0#32 := by
  by_cases hd : s.drains c
  · exact .inr (step_drains h hd)
  · left
    rw [step_ticks h hd, State.ticksAt_eq_zero hcol, wrapS32_sval_add_zero]

/-- The key idea of R147: with the line already seen low there is no falling edge, so nothing is latched, no service
starts, and the line is again last seen low. -/
theorem clkEdge_deaf {p : Ports} {s t : State} (hs : s.Deaf) (hlow : p.intN = false) (h : clkEdge p s = .next t) :
    t.Deaf := by
  obtain ⟨hd, hp, hq⟩ := hs
  have hfell : s.fallingEdge p.intN = false := by simp [State.fallingEdge, hq]
  have hidle : t.dphase = .idle := by
    obtain hsame | ⟨-, -, hp', -⟩ | ⟨hd', -⟩ | ⟨hd', -⟩ | ⟨hd', -⟩ | ⟨hreset, -⟩ :=
      clkEdge_phaseMoves (byReset := False) h
    · exact hsame.trans hd
    · simp [hp] at hp'
    · simp [hd] at hd'
    · simp [hd] at hd'
    · simp [hd] at hd'
    · exact hreset.elim
  obtain ⟨u, rfl, huq, hup⟩ := clkEdge_latches h (by simp [hd])
  have hpending : u.irqPending = false := hup.elim (·.trans hp) (·.2)
  exact ⟨hidle, by simp [hfell, hpending], by simp [huq, hlow]⟩

/-- Where the line was last seen low and every edge to come has it low, so has the next edge, which past the end of the
list repeats the level (log entry 3). -/
theorem exists_step_eq_clkEdge_low {s : State} (hq : s.intNQ = false) (henv : ∀ i ∈ s.env, i.lineLow) :
    ∃ p : Ports, p.intN = false ∧ s.performs = s.performsAt p ∧ step s = clkEdge p { s with env := s.env.tail } := by
  rcases he : s.env with _ | ⟨i, rest⟩
  · have hs : { s with env := [] } = s := by rw [← he]
    exact ⟨s.quietPorts, hq, State.performs_quiet he, by rw [step_quiet he, List.tail_nil, hs]⟩
  · obtain ⟨p, rfl, hlow⟩ := henv i (by simp [he])
    exact ⟨p, hlow, State.performs_edge he, step_edge he⟩

/-- A step at which the line is low leaves a deaf block deaf and counts nothing (R147, R174). -/
theorem exists_step_deaf {s : State} (hs : s.Deaf) (henv : ∀ i ∈ s.env, i.lineLow) :
    ∃ t, step s = .next t ∧ t.Deaf ∧ t.env = s.env.tail ∧
      ∀ c : Fin 8, t.chan[c].tickDelta = s.chan[c].tickDelta ∨ t.chan[c].tickDelta = 0#32 := by
  have ⟨hd, _, hq⟩ := hs
  obtain ⟨p, hlow, hperforms, hstep⟩ := exists_step_eq_clkEdge_low hq henv
  obtain ⟨t, h⟩ := exists_clkEdge_next p { s with env := s.env.tail }
  have hcol : s.performs.column ≠ .irq := hperforms ▸ State.performsAt_column_ne_irq hd p
  have hnext : step s = .next t := hstep.trans h
  exact ⟨t, hnext, clkEdge_deaf (s := { s with env := s.env.tail }) hs hlow h, clkEdge_env h,
    step_tickDelta_of_column_ne_irq hnext hcol⟩

/-- Settles O52, by induction on the number of steps: each leaves the block deaf (`exists_step_deaf`). -/
theorem lowLineIsNeverServed : Obligations.LowLineIsNeverServed := by
  intro n
  induction n with
  | zero => exact fun s hs _ => ⟨s, rfl, hs, fun _ => .inl rfl⟩
  | succ n ih =>
    intro s hs henv
    obtain ⟨t, h, ht, htail, hfirst⟩ := exists_step_deaf hs henv
    obtain ⟨u, hrun, hu, hrest⟩ := ih t ht fun i hi => henv i (List.mem_of_mem_tail (htail ▸ hi))
    refine ⟨u, (run_next h).trans hrun, hu, fun c => ?_⟩
    obtain hkept | hdrained := hrest c
    · rw [hkept]
      exact hfirst c
    · exact .inr hdrained

end Sys2Proof.Machine
end

section
/-!
PROOFS. Reset and hazards (70_reset_and_hazards.md): an answer that comes late, with no query in progress (R165).
-/

namespace Sys2Proof.Machine

/-- No query is requested outside the two query phases (R91, R92). -/
theorem State.ppReq_eq_false_iff {s : State} : s.ppReq = false ↔ s.dphase ≠ .qpin ∧ s.dphase ≠ .qport := by
  simp [State.ppReq]

/-- The answer inputs are looked at only where a query is requested (log entry 16). -/
theorem clkEdge_of_not_ppReq {s : State} (hr : s.ppReq = false) (p : Ports) (ack : Bool) (a : BitVec 16) :
    clkEdge { p with ppAck := ack, ppData := a } s = clkEdge p s := by
  obtain ⟨hpin, hport⟩ := State.ppReq_eq_false_iff.1 hr
  unfold clkEdge
  cases hd : s.dphase with
  | idle | update => rfl
  | qpin => exact absurd hd hpin
  | qport => exact absurd hd hport

/-- Settles O46: with no query requested either edge is that of the block's other inputs (`clkEdge_of_not_ppReq`). -/
theorem lateAnswerIsIgnored : Obligations.LateAnswerIsIgnored := by
  intro s p rest a hr
  rw [step_with_edge, step_with_edge]
  have hignored := clkEdge_of_not_ppReq (s := { s with env := rest }) hr p
  exact (hignored true a).trans (hignored false p.ppData).symm

end Sys2Proof.Machine
end
